-- ==== Sys2Proof/Word.lean ====
section
/-! DEFINITION. The word types of the block (00_scope.md R8): bytes, the 16-bit report fields, the 32-bit checksum
and the 104-bit result bus. -/

namespace Sys2Proof

/-- A `Byte`: an unsigned 8-bit value (R8). -/
abbrev Byte := BitVec 8

/-- A 16-bit field of a mouse report, held as its two's-complement pattern (R8, R20). -/
abbrev Word16 := BitVec 16

/-- The checksum and the accumulator `CRC` (R22). -/
abbrev Word32 := BitVec 32

/-- A value on the result bus, `RES_W` = 104 bits (R7, R142). -/
abbrev ResWord := BitVec 104

end Sys2Proof
end

