-- ==== Sys2Proof/Config.lean ====
section
/-! DEFINITION. The parameters of 00_scope.md R7 that a model takes as arguments: the width of a gamepad axis operand, with
the width of the command word it leads to, and the transport class. Both are fields of the state (10_state.md R39). -/

namespace Sys2Proof

/-- The value the spec gives `AXIS_IN_W` where nothing else is said (R7, D3), and that the widths of
spec/opcode_table.json are for. `State.reset` has it (notes/assumptions/5.md); every definition and statement takes the
width as an argument. -/
def Config.axisInWDefault : Nat := 16

/-- `CMD_W` = 22 + 4*`AXIS_IN_W`, the width of the command word (R7, R60). -/
def Config.cmdW (axisInW : Nat) : Nat := 22 + 4 * axisInW

/-- A word on the command port (R60), as the number its bits are. Its width is the run's `CMD_W`; bits above a format's
significant bits are ignored (R66; notes/assumptions/21.md). -/
abbrev CmdWord := Nat

/-- `MODE`, the transport class of the run (R24): a byte stream with no message boundaries, or datagrams. -/
inductive Mode where
  | stream
  | dgram
deriving DecidableEq, Repr

/-- The coding of `MODE`: 0 = STREAM, 1 = DGRAM (R24). -/
def Mode.code : Mode → BitVec 1
  | .stream => 0
  | .dgram => 1

/-- The value `mode_strap` is taken to have had at the reset that `State.reset` stands for. DESIGN CHOICE
(notes/assumptions/3.md): the spec leaves the class to the run's configuration (R7, D4); a reset among the inputs
loads either class. -/
def Config.strapAtStart : Mode := .stream

end Sys2Proof
end

