-- ==== Sys2Proof/Syntax.lean ====
section
/-! DEFINITION. The rows of spec/opcode_table.json as one inductive: nine operations and seven reserved codes of the
command port (30_encoding.md R60, R69), two report layouts (R70, R71), four stream symbols (R73). -/

namespace Sys2Proof

/-- The mouse snapshot, operand of `ENC.MOUSE` (10_state.md R20) and content of a mouse report (R70). -/
structure MouseSnapshot where
  left : Bool
  right : Bool
  middle : Bool
  x : Word16
  y : Word16
  vscroll : Word16
  hscroll : Word16
deriving DecidableEq, Repr

/-- The gamepad snapshot, operand of `ENC.GPAD` (10_state.md R20). The buttons `x` and `y` are not axes. An axis is the
integer its `AXIS_IN_W`-bit field denotes, `signed_W(field)` (30_encoding.md R67, 40_report_encoder.md R89). -/
structure GamepadSnapshot where
  y : Bool
  b : Bool
  a : Bool
  x : Bool
  l : Bool
  r : Bool
  zl : Bool
  zr : Bool
  minus : Bool
  plus : Bool
  ls : Bool
  rs : Bool
  home : Bool
  capture : Bool
  left : Bool
  right : Bool
  up : Bool
  down : Bool
  lx : Int
  ly : Int
  rx : Int
  ry : Int
deriving DecidableEq, Repr

/-- What a gamepad report carries (30_encoding.md R71): packed bytes, not the snapshot (R94, R157). -/
structure GamepadReport where
  buttons1 : Byte
  buttons2 : Byte
  dpad : Byte
  lx : Byte
  ly : Byte
  rx : Byte
  ry : Byte
deriving DecidableEq, Repr

/-- A parsed report: the two outcomes of `parse_report` besides `None` (44_deframe_reference.md R157). -/
inductive Report where
  | mouse (s : MouseSnapshot)
  | gamepad (r : GamepadReport)
deriving DecidableEq, Repr

/-- One constructor per row of spec/opcode_table.json. -/
inductive Instr where
  /-- `CRC.INIT`, code 0x1 (R107). -/
  | crcInit
  /-- `CRC.BYTE b`, code 0x2 (R108). -/
  | crcByte (b : Byte)
  /-- `RDSR n`, code 0x3 (R142). -/
  | rdsr (n : BitVec 4)
  /-- `FRM.OPEN`, code 0x4 (R124). -/
  | frmOpen
  /-- `FRM.DATA b`, code 0x5 (R125). -/
  | frmData (b : Byte)
  /-- `FRM.CLOSE`, code 0x6 (R126). -/
  | frmClose
  /-- `ENC.MOUSE`, code 0x8 (R84). -/
  | encMouse (m : MouseSnapshot)
  /-- `ENC.GPAD`, code 0x9 (R91). -/
  | encGpad (g : GamepadSnapshot)
  /-- `SEND`, code 0xA (R141). -/
  | send
  /-- Reserved code 0x0 (R69). -/
  | reserved0
  /-- Reserved code 0x7 (R69). -/
  | reserved7
  /-- Reserved code 0xB (R69). -/
  | reservedB
  /-- Reserved code 0xC (R69). -/
  | reservedC
  /-- Reserved code 0xD (R69). -/
  | reservedD
  /-- Reserved code 0xE (R69). -/
  | reservedE
  /-- Reserved code 0xF (R69). -/
  | reservedF
  /-- A payload of the mouse report layout (R70). -/
  | mouseReport (m : MouseSnapshot)
  /-- A payload of the gamepad report layout (R71). -/
  | gamepadReport (r : GamepadReport)
  /-- Stream symbol `END`, wire byte C0 (R73). -/
  | symEnd
  /-- Stream symbol `LIT(b)`, wire byte b (R73). -/
  | symLit (b : Byte)
  /-- Stream symbol `EEND`, wire bytes DB DC (R73). -/
  | symEend
  /-- Stream symbol `EESC`, wire bytes DB DD (R73). -/
  | symEesc
deriving DecidableEq, Repr

/-- The rows of the command port: the nine operations and the seven reserved codes (R60, R69). -/
def Instr.isCommand : Instr → Bool
  | .crcInit => true
  | .crcByte _ => true
  | .rdsr _ => true
  | .frmOpen => true
  | .frmData _ => true
  | .frmClose => true
  | .encMouse _ => true
  | .encGpad _ => true
  | .send => true
  | .reserved0 => true
  | .reserved7 => true
  | .reservedB => true
  | .reservedC => true
  | .reservedD => true
  | .reservedE => true
  | .reservedF => true
  | .mouseReport _ => false
  | .gamepadReport _ => false
  | .symEnd => false
  | .symLit _ => false
  | .symEend => false
  | .symEesc => false

end Sys2Proof
end

