-- ==== Sys2Proof/WellFormed.lean ====
section
/-! DEFINITION. Which terms of `Instr` an encoding of 30_encoding.md stands for, for a given `AXIS_IN_W`. Command words
admit every operand of their field's width (R60 to R66; a reserved `RDSR` number is a word that faults, R69). -/

namespace Sys2Proof

/-- `LIT(b)` exists for b not 0xC0 and not 0xDB (R73). -/
def litOk (b : Byte) : Bool := b != 0xC0#8 && b != 0xDB#8

/-- `buttons2` bits 7:6 are 0 (R71, R72). -/
def buttons2Ok (b : Byte) : Bool := b.extractLsb' 6 2 == 0#2

/-- The dpad byte is a hat code 0..7 or 15 (R71, R72). -/
def dpadOk (d : Byte) : Bool := decide (d.toNat ≤ 7) || d == 0x0F#8

/-- An axis value fits the signed field of `axisInW` bits (R8, R65); one that does not cannot be presented
(93_implementation_defined.md U14). -/
def axisFits (axisInW : Nat) (i : Int) : Bool :=
  decide (-(2 ^ (axisInW - 1)) ≤ i) && decide (i < 2 ^ (axisInW - 1))

/-- Well-formedness of an instruction in a run with the given `AXIS_IN_W`. -/
def Instr.wf (axisInW : Nat) : Instr → Bool
  | .crcInit => true
  | .crcByte _ => true
  | .rdsr _ => true
  | .frmOpen => true
  | .frmData _ => true
  | .frmClose => true
  | .encMouse _ => true
  | .encGpad g => axisFits axisInW g.lx && axisFits axisInW g.ly && axisFits axisInW g.rx && axisFits axisInW g.ry
  | .send => true
  | .reserved0 => true
  | .reserved7 => true
  | .reservedB => true
  | .reservedC => true
  | .reservedD => true
  | .reservedE => true
  | .reservedF => true
  | .mouseReport _ => true
  | .gamepadReport r => buttons2Ok r.buttons2 && dpadOk r.dpad
  | .symEnd => true
  | .symLit b => litOk b
  | .symEend => true
  | .symEesc => true

end Sys2Proof
end

