-- ==== Sys2Proof/Decode.lean ====
section
/-! DEFINITION. The decoders and encoders of the three encodings of 30_encoding.md, which "must not be confused":
command words (R60 to R69), report layouts (R70, R71), stream symbols (R73). -/

namespace Sys2Proof

/-! ### Units of encoding -/

/-- One encoded unit: a word on the command port, a whole payload, or bytes of a stream wire. -/
inductive Code where
  | command (w : CmdWord)
  | report (bytes : List Byte)
  | symbol (bytes : List Byte)
deriving DecidableEq, Repr

/-- Why bytes decode to nothing, by name. Command words never do: all sixteen codes are accounted for (R78). -/
inductive Reject where
  /-- The payload has fewer than four bytes or its byte 0 is not the protocol version 1 (R157). -/
  | wrongVersion
  /-- Bytes 1..3 and the length are neither the mouse's nor the gamepad's (R157). -/
  | unknownLayout
  /-- No byte to read a symbol from. -/
  | noByte
  /-- An ESC with no byte after it (R75, R151). -/
  | escAtEnd
  /-- An ESC followed by a byte other than ESC_END and ESC_ESC (R75, R151). -/
  | badEscape
  /-- Bytes are left over after the one symbol that was asked for. -/
  | trailingBytes
deriving DecidableEq, Repr

/-! ### Command words -/

/-- The `n`-bit field of a command word from bit `lo` up (R61 to R65). -/
def field (n lo : Nat) (w : CmdWord) : BitVec n := BitVec.ofNat n (w >>> lo)

/-- The axis number `k` (lx 0, ly 1, rx 2, ry 3) of a format G word: the signed value of bits
22+(k+1)W-1 : 22+kW, W = `AXIS_IN_W` (R65, R67). -/
def axisField (axisInW k : Nat) (w : CmdWord) : Int := (field axisInW (22 + k * axisInW) w).toInt

/-- Format M (R64). -/
def mouseFields (w : CmdWord) : MouseSnapshot where
  left := w.testBit 4
  right := w.testBit 5
  middle := w.testBit 6
  x := field 16 7 w
  y := field 16 23 w
  vscroll := field 16 39 w
  hscroll := field 16 55 w

/-- Format G (R65). -/
def gamepadFields (axisInW : Nat) (w : CmdWord) : GamepadSnapshot where
  y := w.testBit 4
  b := w.testBit 5
  a := w.testBit 6
  x := w.testBit 7
  l := w.testBit 8
  r := w.testBit 9
  zl := w.testBit 10
  zr := w.testBit 11
  minus := w.testBit 12
  plus := w.testBit 13
  ls := w.testBit 14
  rs := w.testBit 15
  home := w.testBit 16
  capture := w.testBit 17
  left := w.testBit 18
  right := w.testBit 19
  up := w.testBit 20
  down := w.testBit 21
  lx := axisField axisInW 0 w
  ly := axisField axisInW 1 w
  rx := axisField axisInW 2 w
  ry := axisField axisInW 3 w

/-- The operation a command word asks for: a match on `cmd[3:0]` alone, bit 3 first (R60, R66, R68, R69). Total:
every one of the sixteen codes is a row of the table. -/
def decodeCommand (axisInW : Nat) (w : CmdWord) : Instr :=
  match w.testBit 3, w.testBit 2, w.testBit 1, w.testBit 0 with
  | false, false, false, false => .reserved0  -- 0x0
  | false, false, false, true => .crcInit  -- 0x1
  | false, false, true, false => .crcByte (field 8 4 w)  -- 0x2
  | false, false, true, true => .rdsr (field 4 4 w)  -- 0x3
  | false, true, false, false => .frmOpen  -- 0x4
  | false, true, false, true => .frmData (field 8 4 w)  -- 0x5
  | false, true, true, false => .frmClose  -- 0x6
  | false, true, true, true => .reserved7  -- 0x7
  | true, false, false, false => .encMouse (mouseFields w)  -- 0x8
  | true, false, false, true => .encGpad (gamepadFields axisInW w)  -- 0x9
  | true, false, true, false => .send  -- 0xA
  | true, false, true, true => .reservedB  -- 0xB
  | true, true, false, false => .reservedC  -- 0xC
  | true, true, false, true => .reservedD  -- 0xD
  | true, true, true, false => .reservedE  -- 0xE
  | true, true, true, true => .reservedF  -- 0xF

/-! ### Report layouts -/

/-- A 16-bit field from its low and high byte, `lo | hi << 8` (44_deframe_reference.md R157, R40). -/
def fromLe16 (lo hi : Byte) : Word16 := lo.setWidth 16 ||| (hi.setWidth 16 <<< 8)

/-- The report layout a payload has (R78: header and length), fields by offset (R70, R71, R157). The version byte is
checked first; reserved bits and the padding byte are ignored (R157, D30). -/
def decodeReport (p : List Byte) : Except Reject Instr :=
  if p.length < 4 ∨ p.head? ≠ some 0x01#8 then .error .wrongVersion
  else match p with
    | [_, 0x00, 0x09, 0x01, bt, x0, x1, y0, y1, v0, v1, h0, h1] =>
      .ok (.mouseReport
        { left := bt.getLsbD 0, right := bt.getLsbD 1, middle := bt.getLsbD 2,
          x := fromLe16 x0 x1, y := fromLe16 y0 y1, vscroll := fromLe16 v0 v1, hscroll := fromLe16 h0 h1 })
    | [_, 0x02, 0x08, 0x00, b1, b2, d, lx, ly, rx, ry, _] =>
      .ok (.gamepadReport
        { buttons1 := b1, buttons2 := b2, dpad := d, lx := lx, ly := ly, rx := rx, ry := ry })
    | _ => .error .unknownLayout

/-! ### Stream symbols -/

/-- The first symbol of a byte sequence and the bytes after it: 0xDB starts a two-byte symbol, any other byte is a
one-byte symbol (R73). -/
def decodeSymbol : List Byte → Except Reject (Instr × List Byte)
  | [] => .error .noByte
  | b :: rest =>
    if b = 0xC0#8 then .ok (.symEnd, rest)
    else if b = 0xDB#8 then
      match rest with
      | [] => .error .escAtEnd
      | e :: rest' =>
        if e = 0xDC#8 then .ok (.symEend, rest')
        else if e = 0xDD#8 then .ok (.symEesc, rest')
        else .error .badEscape
    else .ok (.symLit b, rest)

/-- The instruction of one encoded unit; a `symbol` unit holds exactly one symbol. -/
def decode (axisInW : Nat) : Code → Except Reject Instr
  | .command w => .ok (decodeCommand axisInW w)
  | .report bytes => decodeReport bytes
  | .symbol bytes =>
    match decodeSymbol bytes with
    | .ok (i, []) => .ok i
    | .ok (_, _ :: _) => .error .trailingBytes
    | .error e => .error e

/-! ### Encoders -/

/-- A field of a command word: `v` in the bits from `lo` up (R61 to R65). -/
def place {n : Nat} (lo : Nat) (v : BitVec n) : CmdWord := v.toNat <<< lo

/-- A Boolean field: its bit is 1 when the field is true (R67). -/
def placeBool (lo : Nat) (b : Bool) : CmdWord := place lo (BitVec.ofBool b)

/-- A format M word (R64). -/
def mouseWord (m : MouseSnapshot) : CmdWord :=
  place 0 0x8#4 ||| placeBool 4 m.left ||| placeBool 5 m.right ||| placeBool 6 m.middle
    ||| place 7 m.x ||| place 23 m.y ||| place 39 m.vscroll ||| place 55 m.hscroll

/-- Axis number `k` of a format G word: the two's-complement pattern `tc_W` of its value (R8, R65). -/
def placeAxis (axisInW k : Nat) (i : Int) : CmdWord := place (22 + k * axisInW) (BitVec.ofInt axisInW i)

/-- A format G word (R65). -/
def gamepadWord (axisInW : Nat) (g : GamepadSnapshot) : CmdWord :=
  place 0 0x9#4 ||| placeBool 4 g.y ||| placeBool 5 g.b ||| placeBool 6 g.a ||| placeBool 7 g.x
    ||| placeBool 8 g.l ||| placeBool 9 g.r ||| placeBool 10 g.zl ||| placeBool 11 g.zr
    ||| placeBool 12 g.minus ||| placeBool 13 g.plus ||| placeBool 14 g.ls ||| placeBool 15 g.rs
    ||| placeBool 16 g.home ||| placeBool 17 g.capture
    ||| placeBool 18 g.left ||| placeBool 19 g.right ||| placeBool 20 g.up ||| placeBool 21 g.down
    ||| placeAxis axisInW 0 g.lx ||| placeAxis axisInW 1 g.ly
    ||| placeAxis axisInW 2 g.rx ||| placeAxis axisInW 3 g.ry

/-- `le16(v)`: low byte, high byte (00_scope.md R9). -/
def le16 (v : Word16) : List Byte := [v.extractLsb' 0 8, v.extractLsb' 8 8]

/-- The mouse layout of a snapshot, byte by byte (R70). -/
def mouseLayout (m : MouseSnapshot) : List Byte :=
  [0x01#8, 0x00#8, 0x09#8, 0x01#8,
    (BitVec.ofBool m.left).setWidth 8 ||| ((BitVec.ofBool m.right).setWidth 8 <<< 1)
      ||| ((BitVec.ofBool m.middle).setWidth 8 <<< 2)]
    ++ le16 m.x ++ le16 m.y ++ le16 m.vscroll ++ le16 m.hscroll

/-- The gamepad layout of its packed bytes, the padding byte last (R71). -/
def gamepadLayout (r : GamepadReport) : List Byte :=
  [0x01#8, 0x02#8, 0x08#8, 0x00#8, r.buttons1, r.buttons2, r.dpad, r.lx, r.ly, r.rx, r.ry, 0x00#8]

/-- The wire bytes of a symbol; a row of another kind has none (R73). -/
def symbolBytes : Instr → List Byte
  | .symEnd => [0xC0#8]
  | .symLit b => [b]
  | .symEend => [0xDB#8, 0xDC#8]
  | .symEesc => [0xDB#8, 0xDD#8]
  | _ => []

/-- The encoded unit of an instruction, operands in the fields of R61 to R65, R70, R71 and R73, every other bit 0. -/
def encode (axisInW : Nat) : Instr → Code
  | .crcInit => .command (place 0 0x1#4)
  | .crcByte b => .command (place 0 0x2#4 ||| place 4 b)
  | .rdsr n => .command (place 0 0x3#4 ||| place 4 n)
  | .frmOpen => .command (place 0 0x4#4)
  | .frmData b => .command (place 0 0x5#4 ||| place 4 b)
  | .frmClose => .command (place 0 0x6#4)
  | .encMouse m => .command (mouseWord m)
  | .encGpad g => .command (gamepadWord axisInW g)
  | .send => .command (place 0 0xA#4)
  | .reserved0 => .command (place 0 0x0#4)
  | .reserved7 => .command (place 0 0x7#4)
  | .reservedB => .command (place 0 0xB#4)
  | .reservedC => .command (place 0 0xC#4)
  | .reservedD => .command (place 0 0xD#4)
  | .reservedE => .command (place 0 0xE#4)
  | .reservedF => .command (place 0 0xF#4)
  | .mouseReport m => .report (mouseLayout m)
  | .gamepadReport r => .report (gamepadLayout r)
  | .symEnd => .symbol (symbolBytes .symEnd)
  | .symLit b => .symbol (symbolBytes (.symLit b))
  | .symEend => .symbol (symbolBytes .symEend)
  | .symEesc => .symbol (symbolBytes .symEesc)

/-- How many low bits of the command word an instruction's format gives a meaning to (R61 to R65). -/
def significantBits (axisInW : Nat) : Instr → Nat
  | .crcByte _ => 12
  | .frmData _ => 12
  | .rdsr _ => 8
  | .encMouse _ => 71
  | .encGpad _ => 22 + 4 * axisInW
  | .crcInit => 4
  | .frmOpen => 4
  | .frmClose => 4
  | .send => 4
  | .reserved0 => 4
  | .reserved7 => 4
  | .reservedB => 4
  | .reservedC => 4
  | .reservedD => 4
  | .reservedE => 4
  | .reservedF => 4
  | .mouseReport _ => 0
  | .gamepadReport _ => 0
  | .symEnd => 0
  | .symLit _ => 0
  | .symEend => 0
  | .symEesc => 0

/-! ### The rows of spec/opcode_table.json as numbers -/

/-- The `n` bytes of a number, most significant byte first: the table writes a REPORT, SYM1 or SYM2 pattern byte 0
first and bit 7 first (R78), and numbers it as one number. -/
def bytesOfPattern : Nat → Nat → List Byte
  | 0, _ => []
  | n + 1, w => bytesOfPattern n (w / 256) ++ [BitVec.ofNat 8 w]

/-- The encoded unit that a row's bits stand for. REPORT rows are 104 or 96 bits wide, SYM2 rows 16 bits starting
with ESC, SYM1 rows 8 bits; every other word is a command word, also one of at most a byte whose upper half is 0,
since the table gives a command row the bits 3:0 (DESIGN CHOICE about the numbering only,
notes/assumptions/11.md). -/
def tableCode (nbits w : Nat) : Code :=
  if nbits = 104 ∨ nbits = 96 then .report (bytesOfPattern (nbits / 8) w)
  else if nbits = 16 ∧ w / 256 = 0xDB then .symbol (bytesOfPattern 2 w)
  else if nbits = 8 ∧ 16 ≤ w then .symbol (bytesOfPattern 1 w)
  else .command w

/-- The instruction the decoder reads from a table row's bits (none where it refuses), for the `AXIS_IN_W` that the table's
widths are for. -/
def decodeTableWord (nbits w : Nat) : Option Instr :=
  match decode Config.axisInWDefault (tableCode nbits w) with
  | .ok i => some i
  | .error _ => none

end Sys2Proof
end

