-- ==== Sys2Proof/Machine/State.lean ====
section
/-! DEFINITION. The machine's state as plain data: the block's tuple (10_state.md R39), its output side
(20_memory.md R44, R51), the reference receiver (44_deframe_reference.md R155, R157) and the outside world's moves. -/

namespace Sys2Proof.Machine

/-! ### The parts of the state -/

/-- `PH`, the framer phase (R23): IDLE (0) no frame is open, OPEN (1) an opening END is out and its closing END is not. -/
inductive Phase where
  | idle
  | opened
deriving DecidableEq, Repr

/-- `ECAUSE` (R26, 60_exceptions.md R171). Codes 5 to 7 are never produced and have no constructor (U10). -/
inductive Cause where
  | noFault
  | illegal
  | mode
  | seq
  | noReport
deriving DecidableEq, Repr

/-- `RLEN` (R25): 0, 12 or 13, the only values R39 gives it. -/
inductive ReportLen where
  | empty
  | gpad
  | mouse
deriving DecidableEq, Repr

/-- One element of OUT: a byte and its `last` flag (20_memory.md R44). -/
structure OutByte where
  byte : Byte
  last : Bool
deriving DecidableEq, Repr

/-- One moment of the pins the block reads (30_encoding.md R60, 20_memory.md R44, 70_reset_and_hazards.md R190). -/
structure Pins where
  /-- `rst`, active high (R190). -/
  rst : Bool
  /-- `mode_strap` (R24, R190). -/
  modeStrap : Mode
  /-- `cmd_valid` (R60). -/
  cmdValid : Bool
  /-- `cmd` (R60). -/
  cmd : CmdWord
  /-- `out_ready`, driven by the sink (R44). -/
  outReady : Bool
deriving DecidableEq, Repr

/-- What the outside world does next (notes/assumptions/2.md). -/
inductive Input where
  /-- A moment of the block's input pins. -/
  | pins (p : Pins)
  /-- Bytes arriving at the reference receiver, the `s` of R155. -/
  | wire (bytes : List Byte)
  /-- A payload given to the receiver's `parse_report` (R157). -/
  | payload (bytes : List Byte)
deriving DecidableEq, Repr

/-- The reference receiver, which is not hardware (44_deframe_reference.md R155, R157; notes/assumptions/8.md). -/
structure Receiver where
  /-- An END has been seen (R155). -/
  inside : Bool
  /-- The bytes since the last END (R155). -/
  buf : List Byte
  /-- `out` of R155: the payloads accepted so far, in order. -/
  frames : List (List Byte)
  /-- The reports `parse_report` has read so far, in order (R157). -/
  reports : List Report
deriving DecidableEq, Repr

/-- The receiver before any byte (R155). -/
def Receiver.start : Receiver := { inside := false, buf := [], frames := [], reports := [] }

/-! ### The state -/

/-- The whole machine. -/
structure State where
  /-- `CRC`, the accumulator, not the finalised checksum (R22). -/
  crc : Word32
  /-- `PH` (R23). -/
  ph : Phase
  /-- `MODE`, loaded by reset and written by no operation (R24). -/
  mode : Mode
  /-- `AXIS_IN_W`, the other part of the run's configuration, an integer of at least 10 that nothing changes (R39). -/
  axisInW : Nat
  /-- `RB[0..12]` (R25). -/
  rb : Vector Byte 13
  /-- `RLEN` (R25). -/
  rlen : ReportLen
  /-- `ECAUSE` (R26). -/
  ecause : Cause
  /-- OUT, what the sink has accepted (R44). -/
  out : List OutByte
  /-- Bytes of the operation in progress that the sink has not accepted, first one on `out_byte` (R36, R51, R191). -/
  offer : List OutByte
  /-- The results `RDSR` has returned, in order (R44, R142). -/
  results : List ResWord
  /-- The reference receiver (R155, R157). -/
  rx : Receiver
  /-- What the outside world does next: the model's own field (notes/assumptions/2.md). -/
  inputs : List Input
deriving DecidableEq, Repr

/-- The machine at the start of a run with the configuration (`m`, `axisInW`): the reset state S0 of R37 and R39, OUT
empty. -/
def State.resetWith (m : Mode) (axisInW : Nat) : State where
  crc := 0xFFFFFFFF#32
  ph := .idle
  mode := m
  axisInW := axisInW
  rb := #v[0, 0, 0, 0, 0, 0, 0, 0, 0, 0, 0, 0, 0]
  rlen := .empty
  ecause := .noFault
  out := []
  offer := []
  results := []
  rx := Receiver.start
  inputs := []

/-- The machine right after reset (R37, R39), the strap at `Config.strapAtStart` (notes/assumptions/3.md) and `AXIS_IN_W` at
the spec's default (notes/assumptions/5.md). -/
def State.reset : State := State.resetWith Config.strapAtStart Config.axisInWDefault

/-! ### Reasons to stop -/

/-- Faults of the model: none. Everything the spec calls a fault is an `OpFault`, which the block takes by recording
its cause in `ECAUSE` and going on, halted (60_exceptions.md R172, R173): a next state. No reason to stop is left, so
the type has no constructor (safe: nothing can be proved of a fault; notes/assumptions/12.md). -/
inductive Fault
deriving DecidableEq, Repr

/-- Refusals of the model. -/
inductive Refusal where
  /-- Raised only by an arm of `exec` for an instruction that has no meaning yet; no arm is left that raises it.
  Safe: nothing is proved of an instruction that is refused. -/
  | notModelled (mnemonic : String)
deriving DecidableEq, Repr

/-- What a step answers. -/
abbrev Result := Host.Outcome State Fault Refusal

end Sys2Proof.Machine
end

