-- ==== Sys2Proof/Machine/Operands.lean ====
section
/-! DEFINITION. Operand forms: little-endian byte strings (00_scope.md R9), the dpad index (40_report_encoder.md R88),
the axis clamp (R89), and the numeric codes of `PH`, `ECAUSE` and `RLEN` (10_state.md R23, R25, R26). -/

namespace Sys2Proof.Machine

/-- `le32(v)`: four bytes, least significant first (R9). -/
def le32 (v : Word32) : List Byte :=
  [v.extractLsb' 0 8, v.extractLsb' 8 8, v.extractLsb' 16 8, v.extractLsb' 24 8]

/-- `from_le32([a,b,c,d]) = a | b<<8 | c<<16 | d<<24` (R9). -/
def fromLe32 (a b c d : Byte) : Word32 :=
  a.setWidth 32 ||| (b.setWidth 32 <<< 8) ||| (c.setWidth 32 <<< 16) ||| (d.setWidth 32 <<< 24)

/-- A Boolean as the 8-bit number 0 or 1 (R8). -/
def bit8 (b : Bool) : Byte := (BitVec.ofBool b).setWidth 8

/-- `idx = left*1 + right*2 + up*4 + down*8` (R88). -/
def dpadIndex (left right up down : Bool) : Nat :=
  left.toNat * 1 + right.toNat * 2 + up.toNat * 4 + down.toNat * 8

/-- `clamp_axis` (R89): the integer that an axis operand of any width denotes, saturated to 0..255. -/
def clampAxis (i : Int) : Byte :=
  if i < 0 then 0x00#8
  else if 255 < i then 0xFF#8
  else BitVec.ofInt 8 i

/-- The code of `PH`: 0 IDLE, 1 OPEN (R23). -/
def Phase.code : Phase → BitVec 1
  | .idle => 0
  | .opened => 1

/-- The code of `ECAUSE` (R26, R171). -/
def Cause.code : Cause → BitVec 3
  | .noFault => 0
  | .illegal => 1
  | .mode => 2
  | .seq => 3
  | .noReport => 4

/-- The number of bytes `RLEN` stands for (R25). -/
def ReportLen.toNat : ReportLen → Nat
  | .empty => 0
  | .gpad => 12
  | .mouse => 13

/-- The code of `RLEN`, 4 bits (R25, R30). -/
def ReportLen.code (n : ReportLen) : BitVec 4 := BitVec.ofNat 4 n.toNat

end Sys2Proof.Machine
end

