-- ==== Sys2Proof/Machine/Flags.lean ====
section
/-! DEFINITION. The flag-like state and the six status registers (10_state.md R27 to R34), all views of `State`. The
block has no arithmetic condition codes (R27). -/

namespace Sys2Proof.Machine

/-- `ERR` = (`ECAUSE` != 0): the block is halted (R27, 60_exceptions.md R173, R177). -/
def State.err (s : State) : Bool := s.ecause != .noFault

/-- `RLEN` != 0, "a report is present" (R27). -/
def State.hasReport (s : State) : Bool := s.rlen != .empty

/-- `RB[0..RLEN-1]`, what `SEND` reads (R25, R141). -/
def State.report (s : State) : List Byte := s.rb.toList.take s.rlen.toNat

/-- `CFG`: bit 0 = `MODE`, bits 7:1 read as 0 (R29). -/
def State.cfgWord (s : State) : BitVec 8 := s.mode.code.setWidth 8

/-- `STATUS`: bit 0 = `ERR`, bit 1 = `PH`, bits 3:2 read as 0, bits 7:4 = `RLEN` (R30). -/
def State.statusWord (s : State) : BitVec 8 :=
  bit8 s.err ||| (s.ph.code.setWidth 8 <<< 1) ||| (s.rlen.code.setWidth 8 <<< 4)

/-- The `ECAUSE` register: bits 2:0 = `ECAUSE`, bits 7:3 read as 0 (R31). -/
def State.ecauseWord (s : State) : BitVec 8 := s.ecause.code.setWidth 8

/-- `CRCSUM`: the finalised checksum `CRC xor 0xFFFFFFFF` (R32). -/
def State.crcSum (s : State) : BitVec 32 := s.crc ^^^ 0xFFFFFFFF#32

/-- `CRCACC`: the raw accumulator (R33). -/
def State.crcAcc (s : State) : BitVec 32 := s.crc

/-- Bytes packed first byte lowest: `b0 | b1 << 8 | …` (R34). -/
def packLe : List Byte → ResWord
  | [] => 0
  | b :: rest => b.setWidth 104 ||| (packLe rest <<< 8)

/-- `RBV`: bits [8*i+7 : 8*i] = `RB[i]`, all thirteen whatever `RLEN` is (R34). -/
def State.rbv (s : State) : ResWord := packLe s.rb.toList

/-- The value of status register `n`, zero-extended to the result bus (R28, R142); numbers 6 to 15 are reserved. -/
def State.statusReg (s : State) (n : BitVec 4) : Option ResWord :=
  match n.toNat with
  | 0 => some (s.cfgWord.setWidth 104)
  | 1 => some (s.statusWord.setWidth 104)
  | 2 => some (s.ecauseWord.setWidth 104)
  | 3 => some (s.crcSum.setWidth 104)
  | 4 => some (s.crcAcc.setWidth 104)
  | 5 => some s.rbv
  | _ => none

end Sys2Proof.Machine
end

