-- ==== Sys2Proof/Machine/Ops.lean ====
section
/-! DEFINITION. The named operations over the state that the operation rules are written with (00_scope.md R10): `Emit`,
`Result`, `raise OpFault` (60_exceptions.md R172), refusal while halted (R173), and reset, the only way out of a
fault (R175, 70_reset_and_hazards.md R190). -/

namespace Sys2Proof.Machine

/-- `Emit(b, last)`: append to the bytes handed to the sink (R10, R44). The pair is on offer until the sink takes it. -/
def State.emit (s : State) (b : Byte) (last : Bool) : State :=
  { s with offer := s.offer ++ [{ byte := b, last := last }] }

/-- `for each e in bs, in order: Emit(e, last = 0)` (42_framer.md R125). -/
def State.emitAll (s : State) (bs : List Byte) : State :=
  bs.foldl (fun s b => s.emit b false) s

/-- OUT as the operation rules write it: every pair emitted so far, accepted by the sink or still on offer
(R10, R44; notes/assumptions/1.md). -/
def State.emitted (s : State) : List OutByte := s.out ++ s.offer

/-- `Result(v)`: one transfer of the result bus (R10, R142). -/
def State.result (s : State) (v : ResWord) : State := { s with results := s.results ++ [v] }

/-- TAKING THE EXCEPTION: `raise OpFault(cause)` records the cause and has no other effect; nothing is saved, there is
no handler, and from here on the block is halted (60_exceptions.md R172). -/
def State.opFault (s : State) (c : Cause) : State := { s with ecause := c }

/-- RETURN FROM THE EXCEPTION is reset and nothing else (R175): every element takes its reset value, `MODE` the
strap's, and the run's `AXIS_IN_W` stays (R39); bytes on offer are withdrawn and nothing is emitted; what has left the block stays
(70_reset_and_hazards.md R190, R191). -/
def State.resetTo (s : State) (strap : Mode) : State :=
  { s with
    crc := 0xFFFFFFFF#32
    ph := .idle
    mode := strap
    rb := #v[0, 0, 0, 0, 0, 0, 0, 0, 0, 0, 0, 0, 0]
    rlen := .empty
    ecause := .noFault
    offer := [] }

/-- The first check of every operation but `RDSR` of a defined register: while halted it is refused, which is no
effect whatever (60_exceptions.md R173, R174). -/
def State.unlessHalted (s : State) (op : State → Result) : Result :=
  if s.ecause = .noFault then op s else .next s

/-- `raise OpFault(cause)` as the end of an operation (R10, R172). -/
def raiseOpFault (c : Cause) (s : State) : Result := .next (s.opFault c)

end Sys2Proof.Machine
end

