-- ==== Sys2Proof/Machine/Crc.lean ====
section
/-! DEFINITION. The CRC unit (41_crc32.md): `crc_update`, `crc_final`, `crc32`, its two other forms, and the
operations `CRC.INIT` and `CRC.BYTE`. The parameters are the spec's general knowledge (R100, G1;
notes/assumptions/6.md). -/

namespace Sys2Proof.Machine

/-! ### Level F -/

/-- `CRC_INIT` (R101). -/
def crcInitValue : Word32 := 0xFFFFFFFF#32

/-- `CRC_XOROUT` (R101). -/
def crcXorOut : Word32 := 0xFFFFFFFF#32

/-- `CRC_POLY_REFLECTED` (R101). -/
def crcPolyReflected : Word32 := 0xEDB88320#32

/-- `repeat n times` (R102). -/
def iterate {α : Type} (f : α → α) : Nat → α → α
  | 0, x => x
  | n + 1, x => iterate f n (f x)

/-- One of the eight iterations of R102: a logical shift right, and the polynomial where bit 0 was 1. -/
def crcShift (c : Word32) : Word32 :=
  if c.getLsbD 0 then (c >>> 1) ^^^ crcPolyReflected else c >>> 1

/-- `crc_update(c, b)` (R102). -/
def crcUpdate (c : Word32) (b : Byte) : Word32 := iterate crcShift 8 (c ^^^ b.setWidth 32)

/-- The loop of `crc32` from an accumulator value (R104). -/
def crcAbsorb (c : Word32) (bs : List Byte) : Word32 := bs.foldl crcUpdate c

/-- `crc_final(c)` (R103). -/
def crcFinal (c : Word32) : Word32 := c ^^^ crcXorOut

/-- `crc32(s)` (R104). -/
def crc32 (s : List Byte) : Word32 := crcFinal (crcAbsorb crcInitValue s)

/-- `T[n]` of the table form: the eight iterations on the 32-bit value n, with no initial XOR (R105). -/
def crcTable (n : Byte) : Word32 := iterate crcShift 8 (n.setWidth 32)

/-- `crc_update` in table form (R105). -/
def crcUpdateTable (c : Word32) (b : Byte) : Word32 :=
  crcTable ((c ^^^ b.setWidth 32).setWidth 8) ^^^ (c >>> 8)

/-- One iteration of the most-significant-bit-first form (R106). -/
def crcShiftMsb (c : Word32) : Word32 :=
  if c.getLsbD 31 then (c <<< 1) ^^^ 0x04C11DB7#32 else c <<< 1

/-- Absorbing one byte in the most-significant-bit-first form (R106). -/
def crcUpdateMsb (c : Word32) (b : Byte) : Word32 :=
  iterate crcShiftMsb 8 (c ^^^ (b.reverse.setWidth 32 <<< 24))

/-- The checksum by the most-significant-bit-first form (R106). -/
def crc32Msb (s : List Byte) : Word32 := (s.foldl crcUpdateMsb 0xFFFFFFFF#32).reverse ^^^ 0xFFFFFFFF#32

/-! ### Operations -/

/-- `CRC.INIT` (R107). -/
def execCrcInit (s : State) : Result :=
  s.unlessHalted fun s =>
    if s.ph = .opened then raiseOpFault .seq s
    else .next { s with crc := crcInitValue }

/-- `CRC.BYTE b` (R108). -/
def execCrcByte (b : Byte) (s : State) : Result :=
  s.unlessHalted fun s =>
    if s.ph = .opened then raiseOpFault .seq s
    else .next { s with crc := crcUpdate s.crc b }

end Sys2Proof.Machine
end

