-- ==== Sys2Proof/Machine/Framer.lean ====
section
/-! DEFINITION. The byte-stuffing framer FRM (42_framer.md): `esc`, `escaped`, `frame`, and the operations `FRM.OPEN`,
`FRM.DATA`, `FRM.CLOSE`. -/

namespace Sys2Proof.Machine

/-! ### Level F -/

/-- `END` (R120). -/
def byteEnd : Byte := 0xC0#8

/-- `ESC` (R120). -/
def byteEsc : Byte := 0xDB#8

/-- `ESC_END` (R120). -/
def byteEscEnd : Byte := 0xDC#8

/-- `ESC_ESC` (R120). -/
def byteEscEsc : Byte := 0xDD#8

/-- `esc(b)` (R121). -/
def esc (b : Byte) : List Byte :=
  if b = byteEnd then [byteEsc, byteEscEnd]
  else if b = byteEsc then [byteEsc, byteEscEsc]
  else [b]

/-- `escaped(s)`: each byte replaced independently (R122). -/
def escaped (s : List Byte) : List Byte := s.flatMap esc

/-- `frame(p)` over a checksum function, which is all that the structural rules R127 to R129 need
(93_implementation_defined.md G1). -/
def frameWith (crc : List Byte → Word32) (p : List Byte) : List Byte :=
  [byteEnd] ++ escaped p ++ escaped (le32 (crc p)) ++ [byteEnd]

/-- `frame(p)` (R123). -/
def frame (p : List Byte) : List Byte := frameWith crc32 p

/-! ### Operations -/

/-- The stuffed checksum of accumulator value `c`: `t <- le32(c xor 0xFFFFFFFF)`, each byte of `t` escaped and
emitted (R126, 43_send_and_status.md R141). -/
def State.emitTrailer (s : State) (c : Word32) : State :=
  (le32 (crcFinal c)).foldl (fun s t => s.emitAll (esc t)) s

/-- `FRM.OPEN` (R124). -/
def execFrmOpen (s : State) : Result :=
  s.unlessHalted fun s =>
    if s.mode = .dgram then raiseOpFault .mode s
    else if s.ph = .opened then raiseOpFault .seq s
    else .next { s.emit byteEnd false with crc := crcInitValue, ph := .opened }

/-- `FRM.DATA b`: the raw byte into the checksum, its stuffed form onto OUT (R125). -/
def execFrmData (b : Byte) (s : State) : Result :=
  s.unlessHalted fun s =>
    if s.mode = .dgram then raiseOpFault .mode s
    else if s.ph = .idle then raiseOpFault .seq s
    else .next { s.emitAll (esc b) with crc := crcUpdate s.crc b }

/-- `FRM.CLOSE`: the stuffed trailer and the closing END; `CRC` is not written (R126). -/
def execFrmClose (s : State) : Result :=
  s.unlessHalted fun s =>
    if s.mode = .dgram then raiseOpFault .mode s
    else if s.ph = .idle then raiseOpFault .seq s
    else .next { (s.emitTrailer s.crc).emit byteEnd true with ph := .idle }

end Sys2Proof.Machine
end

