-- ==== Sys2Proof/Machine/Deframe.lean ====
section
/-! DEFINITION. The reference inverse (44_deframe_reference.md), which is not hardware: `strip_end_markers`, `unescape`,
`check`, `deframe_one`, `deframe_stream`, `parse_report`, and the effect of stream symbols and report payloads on the
reference receiver (notes/assumptions/8.md). -/

namespace Sys2Proof.Machine

/-! ### Level F -/

/-- `strip_end_markers(f)`: exactly two 0xC0, first and last (R150). -/
def stripEndMarkers (f : List Byte) : Option (List Byte) :=
  match f with
  | [] => none
  | a :: rest =>
    if a = byteEnd ∧ rest.getLast? = some byteEnd ∧ byteEnd ∉ rest.dropLast then some rest.dropLast else none

/-- `unescape(c)`, left to right (R152). -/
def unescape : List Byte → Option (List Byte)
  | [] => some []
  | [b] => if b = byteEsc then none else some [b]
  | b :: x :: rest =>
    if b = byteEsc then
      if x = byteEscEnd then (unescape rest).map (byteEnd :: ·)
      else if x = byteEscEsc then (unescape rest).map (byteEsc :: ·)
      else none
    else (unescape (x :: rest)).map (b :: ·)

/-- `check(u)` over a checksum function (R153, 93_implementation_defined.md G1). -/
def checkWith (crc : List Byte → Word32) (u : List Byte) : Option (List Byte) :=
  if u.length < 4 then none
  else
    let p := u.take (u.length - 4)
    if le32 (crc p) = u.drop (u.length - 4) then some p else none

/-- `check(u)` (R153). -/
def check (u : List Byte) : Option (List Byte) := checkWith crc32 u

/-- `deframe_one(f)` over a checksum function (R154). -/
def deframeOneWith (crc : List Byte → Word32) (f : List Byte) : Option (List Byte) :=
  ((stripEndMarkers f).bind unescape).bind (checkWith crc)

/-- `deframe_one(f)` (R154). -/
def deframeOne (f : List Byte) : Option (List Byte) := deframeOneWith crc32 f

/-- What an END makes of the bytes before it: the payload of a candidate that is accepted, if any (R155). Any END ends the
candidate, also the opening END of the next frame where a closing END was lost; such a candidate is accepted when its
checksum matches, as in R155, and not dropped, as in the example of R156 (b): DESIGN CHOICE between the two
(notes/assumptions/22.md). -/
def closeCandidate (inside : Bool) (buf : List Byte) : List (List Byte) :=
  if inside ∧ buf ≠ [] then ((unescape buf).bind check).toList else []

/-- The loop of `deframe_stream` from `buf` and `inside`; it answers what is appended to `out` (R155). -/
def deframeLoop : List Byte → Bool → List Byte → List (List Byte)
  | [], _, _ => []
  | x :: s, inside, buf =>
    if x = byteEnd then closeCandidate inside buf ++ deframeLoop s true []
    else if inside then deframeLoop s true (buf ++ [x])
    else deframeLoop s false buf

/-- `deframe_stream(s)` (R155). -/
def deframeStream (s : List Byte) : List (List Byte) := deframeLoop s false []

/-- `parse_report(p)` (R157): the layout rows of the table, read from a payload. -/
def parseReport (p : List Byte) : Option Report :=
  match decodeReport p with
  | .ok (.mouseReport m) => some (.mouse m)
  | .ok (.gamepadReport r) => some (.gamepad r)
  | _ => none

/-- The data symbol that stands for byte `b` (30_encoding.md R73, R74). -/
def symbolOf (b : Byte) : Instr :=
  if b = byteEnd then .symEend else if b = byteEsc then .symEesc else .symLit b

/-! ### The reference receiver -/

/-- One turn of the loop of `deframe_stream` (R155). -/
def Receiver.byte (r : Receiver) (x : Byte) : Receiver :=
  if x = byteEnd then
    { r with frames := r.frames ++ closeCandidate r.inside r.buf, buf := [], inside := true }
  else if r.inside then { r with buf := r.buf ++ [x] }
  else r

/-- Bytes of a stream wire reach the receiver. -/
def State.receive (s : State) (bs : List Byte) : State := { s with rx := bs.foldl Receiver.byte s.rx }

/-- A report read by `parse_report` (R157). -/
def State.parsed (s : State) (r : Report) : State :=
  { s with rx := { s.rx with reports := s.rx.reports ++ [r] } }

/-! ### Stream symbols and report payloads -/

/-- `END`: the frame delimiter (R73). It ends the pending candidate and starts the next (R155). -/
def execSymEnd (s : State) : Result := .next (s.receive [byteEnd])

/-- `LIT(b)`: data byte b (R73). -/
def execSymLit (b : Byte) (s : State) : Result := .next (s.receive [b])

/-- `EEND`: data byte 0xC0, as `DB DC` (R73). -/
def execSymEend (s : State) : Result := .next (s.receive [byteEsc, byteEscEnd])

/-- `EESC`: data byte 0xDB, as `DB DD` (R73). -/
def execSymEesc (s : State) : Result := .next (s.receive [byteEsc, byteEscEsc])

/-- A payload of the mouse layout: `parse_report` gives `Some Mouse` (R157). -/
def execMouseReport (m : MouseSnapshot) (s : State) : Result := .next (s.parsed (.mouse m))

/-- A payload of the gamepad layout: `parse_report` gives `Some Gamepad`, the packed bytes (R157). -/
def execGamepadReport (r : GamepadReport) (s : State) : Result := .next (s.parsed (.gamepad r))

end Sys2Proof.Machine
end

