-- ==== Sys2Proof/Machine/Report.lean ====
section
/-! DEFINITION. The report encoder RPT (40_report_encoder.md): the two report functions and the operations `ENC.MOUSE`
and `ENC.GPAD`. -/

namespace Sys2Proof.Machine

/-! ### Level F -/

/-- `header(desc, length, rid)` (R80). -/
def header (desc length rid : Byte) : List Byte := [0x01#8, desc, length, rid]

/-- `mouse_buttons(s)` (R82). -/
def mouseButtons (s : MouseSnapshot) : Byte :=
  bit8 s.left ||| (bit8 s.right <<< 1) ||| (bit8 s.middle <<< 2)

/-- `mouse_report(s)`, 13 bytes (R81). -/
def mouseReport (s : MouseSnapshot) : List Byte :=
  header 0 9 1 ++ [mouseButtons s] ++ le16 s.x ++ le16 s.y ++ le16 s.vscroll ++ le16 s.hscroll

/-- `gp_buttons1(s)` (R86). -/
def gpButtons1 (s : GamepadSnapshot) : Byte :=
  bit8 s.y ||| (bit8 s.b <<< 1) ||| (bit8 s.a <<< 2) ||| (bit8 s.x <<< 3)
    ||| (bit8 s.l <<< 4) ||| (bit8 s.r <<< 5) ||| (bit8 s.zl <<< 6) ||| (bit8 s.zr <<< 7)

/-- `gp_buttons2(s)` (R87). -/
def gpButtons2 (s : GamepadSnapshot) : Byte :=
  bit8 s.minus ||| (bit8 s.plus <<< 1) ||| (bit8 s.ls <<< 2) ||| (bit8 s.rs <<< 3)
    ||| (bit8 s.home <<< 4) ||| (bit8 s.capture <<< 5)

/-- `DPAD_LUT`, reproduced verbatim and not computed (R88). -/
def dpadLut : List Byte := [15, 6, 2, 15, 0, 7, 1, 0, 4, 5, 3, 4, 15, 6, 2, 15]

/-- `dpad_code(left, right, up, down)` (R88). -/
def dpadCode (left right up down : Bool) : Byte := dpadLut.getD (dpadIndex left right up down) 15

/-- `gamepad_report(s)`, 12 bytes, the padding byte last (R85, R90). -/
def gamepadReport (s : GamepadSnapshot) : List Byte :=
  header 2 8 0
    ++ [gpButtons1 s, gpButtons2 s, dpadCode s.left s.right s.up s.down]
    ++ [clampAxis s.lx, clampAxis s.ly, clampAxis s.rx, clampAxis s.ry]
    ++ [0x00#8]

/-! ### Operations -/

/-- The thirteen bytes of `RB` that hold `r`, 0x00 above it (R84, R91). -/
def rbOf (r : List Byte) : Vector Byte 13 :=
  #v[r.getD 0 0, r.getD 1 0, r.getD 2 0, r.getD 3 0, r.getD 4 0, r.getD 5 0, r.getD 6 0,
    r.getD 7 0, r.getD 8 0, r.getD 9 0, r.getD 10 0, r.getD 11 0, r.getD 12 0]

/-- `ENC.MOUSE` (R84). -/
def execEncMouse (m : MouseSnapshot) (s : State) : Result :=
  s.unlessHalted fun s => .next { s with rb := rbOf (mouseReport m), rlen := .mouse }

/-- `ENC.GPAD` (R91). -/
def execEncGpad (g : GamepadSnapshot) (s : State) : Result :=
  s.unlessHalted fun s => .next { s with rb := rbOf (gamepadReport g), rlen := .gpad }

end Sys2Proof.Machine
end

