-- ==== Sys2Proof/Machine/Reserved.lean ====
section
/-! DEFINITION. The seven reserved operation codes (30_encoding.md R69): each raises `OpFault(ILLEGAL)`, or is refused
while halted (60_exceptions.md R171, R173, R174). -/

namespace Sys2Proof.Machine

/-- What a reserved code does (R69, R174). -/
def illegalCode (s : State) : Result := s.unlessHalted (raiseOpFault .illegal)

/-- Code 0x0, the all-zero command word (R69). -/
def execReserved0 (s : State) : Result := illegalCode s

/-- Code 0x7 (R69). -/
def execReserved7 (s : State) : Result := illegalCode s

/-- Code 0xB (R69). -/
def execReservedB (s : State) : Result := illegalCode s

/-- Code 0xC (R69). -/
def execReservedC (s : State) : Result := illegalCode s

/-- Code 0xD (R69). -/
def execReservedD (s : State) : Result := illegalCode s

/-- Code 0xE (R69). -/
def execReservedE (s : State) : Result := illegalCode s

/-- Code 0xF (R69). -/
def execReservedF (s : State) : Result := illegalCode s

end Sys2Proof.Machine
end

