-- ==== Sys2Proof/Machine/Send.lean ====
section
/-! DEFINITION. The transport-class send and the status read (43_send_and_status.md): `send`, `SEND`, `RDSR`. -/

namespace Sys2Proof.Machine

/-! ### Level F -/

/-- `send(mode, r)`: the bytes handed to the sink for a report (R140). -/
def send (m : Mode) (r : List Byte) : List Byte :=
  match m with
  | .stream => frame r
  | .dgram => r

/-- One transport unit on OUT: `last` = 1 on the final byte and 0 on the others (20_memory.md R45). -/
def withLast : List Byte → List OutByte
  | [] => []
  | [b] => [{ byte := b, last := true }]
  | b :: c :: rest => { byte := b, last := false } :: withLast (c :: rest)

/-! ### Operations -/

/-- `for i in 0..RLEN-1: Emit(RB[i], last = (i = RLEN-1))` (R141). -/
def State.emitDatagram (s : State) : List Byte → State
  | [] => s
  | [b] => s.emit b true
  | b :: c :: rest => (s.emit b false).emitDatagram (c :: rest)

/-- The loop of STREAM `SEND`: absorb the raw byte, emit its stuffed form (R141). -/
def sendLoop : List Byte → Word32 → State → Word32 × State
  | [], c, s => (c, s)
  | b :: rest, c, s => sendLoop rest (crcUpdate c b) (s.emitAll (esc b))

/-- STREAM `SEND`: opening END, stuffed report, stuffed checksum, closing END; `CRC` keeps the report's accumulator
(R141). -/
def State.emitFramed (s : State) (r : List Byte) : State :=
  let looped := sendLoop r crcInitValue (s.emit byteEnd false)
  { (looped.2.emitTrailer looped.1).emit byteEnd true with crc := looped.1 }

/-- `SEND` (R141). -/
def execSend (s : State) : Result :=
  s.unlessHalted fun s =>
    if s.ph = .opened then raiseOpFault .seq s
    else if s.rlen = .empty then raiseOpFault .noReport s
    else
      match s.mode with
      | .dgram => .next (s.emitDatagram s.report)
      | .stream => .next (s.emitFramed s.report)

/-- `RDSR n`: the one operation a halted block still performs, for a defined register (R142, 60_exceptions.md R173);
a reserved number raises ILLEGAL, or is refused when halted. -/
def execRdsr (n : BitVec 4) (s : State) : Result :=
  match s.statusReg n with
  | some v => .next (s.result v)
  | none => s.unlessHalted (raiseOpFault .illegal)

end Sys2Proof.Machine
end

