-- ==== Sys2Proof/Machine/Dispatch.lean ====
section
/-! DEFINITION. One arm per instruction: the meaning of each row of spec/opcode_table.json. -/

namespace Sys2Proof.Machine

def exec (i : Instr) (s : State) : Host.Outcome State Fault Refusal :=
  match i with
  -- the nine operations of the command port
  | .crcInit => Sys2Proof.Machine.execCrcInit s
  | .crcByte b => Sys2Proof.Machine.execCrcByte b s
  | .rdsr n => Sys2Proof.Machine.execRdsr n s
  | .frmOpen => Sys2Proof.Machine.execFrmOpen s
  | .frmData b => Sys2Proof.Machine.execFrmData b s
  | .frmClose => Sys2Proof.Machine.execFrmClose s
  | .encMouse m => Sys2Proof.Machine.execEncMouse m s
  | .encGpad g => Sys2Proof.Machine.execEncGpad g s
  | .send => Sys2Proof.Machine.execSend s
  -- the seven reserved codes
  | .reserved0 => Sys2Proof.Machine.execReserved0 s
  | .reserved7 => Sys2Proof.Machine.execReserved7 s
  | .reservedB => Sys2Proof.Machine.execReservedB s
  | .reservedC => Sys2Proof.Machine.execReservedC s
  | .reservedD => Sys2Proof.Machine.execReservedD s
  | .reservedE => Sys2Proof.Machine.execReservedE s
  | .reservedF => Sys2Proof.Machine.execReservedF s
  -- report layouts and stream symbols, at the reference receiver
  | .mouseReport m => Sys2Proof.Machine.execMouseReport m s
  | .gamepadReport r => Sys2Proof.Machine.execGamepadReport r s
  | .symEnd => Sys2Proof.Machine.execSymEnd s
  | .symLit b => Sys2Proof.Machine.execSymLit b s
  | .symEend => Sys2Proof.Machine.execSymEend s
  | .symEesc => Sys2Proof.Machine.execSymEesc s

end Sys2Proof.Machine
end

