-- ==== Sys2Proof/Machine/Port.lean ====
section
/-! DEFINITION. The pins: the block's outputs as functions of the state and the moment's inputs (30_encoding.md R60,
20_memory.md R44, R51, 60_exceptions.md R177, 70_reset_and_hazards.md R190), and what one input does. -/

namespace Sys2Proof.Machine

/-! ### Output pins -/

/-- `out_valid`: a byte is on offer; 0 while `rst` = 1 (R44, R190). -/
def State.outValid (s : State) (p : Pins) : Bool := !p.rst && !s.offer.isEmpty

/-- `out_byte` and `out_last` when `out_valid` = 1 (R44). -/
def State.outPair (s : State) (p : Pins) : Option OutByte := if p.rst then none else s.offer.head?

/-- `cmd_ready`: no byte of an earlier operation is still on offer, and `rst` = 0 (R46, R51, R190). -/
def State.cmdReady (s : State) (p : Pins) : Bool := !p.rst && s.offer.isEmpty

/-- The `err` output: the level `ECAUSE` != 0; 0 while `rst` = 1 (R177, R190). -/
def State.errPin (s : State) (p : Pins) : Bool := !p.rst && s.err

/-! ### One input -/

/-- The sink at a moment with bytes on offer: one element is transferred when `out_ready` = 1, and otherwise nothing
moves (R44, R51). -/
def State.sinkMoment (s : State) (ready : Bool) : State :=
  match s.offer, ready with
  | e :: es, true => { s with out := s.out ++ [e], offer := es }
  | _, _ => s

/-- One moment of the pins. Reset has priority over everything (R190); while a byte is on offer no operation is
accepted (R46, R51); otherwise the operation on `cmd` is accepted when `cmd_valid` = 1 (R60), and an idle block holds
its state (60_exceptions.md R179). -/
def pinsMoment (p : Pins) (s : State) : Result :=
  if p.rst then .next (s.resetTo p.modeStrap)
  else if s.outValid p then .next (s.sinkMoment p.outReady)
  else if p.cmdValid then exec (decodeCommand s.axisInW p.cmd) s
  else .next s

/-- Bytes `rest` are still to be read by the receiver, before every other input. -/
def State.unread (s : State) (rest : List Byte) : State :=
  if rest = [] then s else { s with inputs := .wire rest :: s.inputs }

/-- Bytes at the reference receiver: the first symbol is read and runs (R73). Bytes that start no symbol, a garbled or
cut escape (R75, R151), reach the loop of R155 one at a time. -/
def wireMoment (bytes : List Byte) (s : State) : Result :=
  match decodeSymbol bytes with
  | .ok (i, rest) => exec i (s.unread rest)
  | .error _ =>
    match bytes with
    | [] => .next s
    | b :: rest => .next ((s.unread rest).receive [b])

/-- A payload at the reference receiver: a report of a known layout runs, anything else is dropped, silently
(R151, R157). -/
def payloadMoment (bytes : List Byte) (s : State) : Result :=
  match decodeReport bytes with
  | .ok i => exec i s
  | .error _ => .next s

/-- The input an encoded unit arrives by: a command word at a moment with `rst` = 0 and `cmd_valid` = 1. -/
def inputOf (strap : Mode) : Code → Input
  | .command w => .pins { rst := false, modeStrap := strap, cmdValid := true, cmd := w, outReady := true }
  | .report bytes => .payload bytes
  | .symbol bytes => .wire bytes

/-- The state whose next input is the unit `c`, the sink having taken what was on offer
(notes/assumptions/2.md, notes/assumptions/11.md). -/
def State.present (s : State) (c : Code) : State :=
  { s with out := s.out ++ s.offer, offer := [], inputs := inputOf s.mode c :: s.inputs }

end Sys2Proof.Machine
end

