-- ==== Sys2Proof/Machine/Step.lean ====
section
/-! DEFINITION. One step of the machine: the next input happens. -/

namespace Sys2Proof.Machine

/-- One step. With no input left nothing happens: the block acts only "in response to an accepted operation or to
reset" (60_exceptions.md R176) and "an idle block simply holds its state" (R179). -/
def step (s : State) : Host.Outcome State Fault Refusal :=
  match s.inputs with
  | [] => .next s
  | .pins p :: rest => pinsMoment p { s with inputs := rest }
  | .wire bytes :: rest => wireMoment bytes { s with inputs := rest }
  | .payload bytes :: rest => payloadMoment bytes { s with inputs := rest }

/-- `s` with the instruction of a table row's bits presented as its next input (notes/assumptions/2.md). -/
def State.withFetchWord (s : State) (nbits w : Nat) : State := s.present (tableCode nbits w)

end Sys2Proof.Machine
end

