-- ==== Sys2Proof/Safety.lean ====
section
/-! DEFINITION. The terms claims are made in: sequences of operations, how a run ends (70_reset_and_hazards.md R194),
the legality matrix (43_send_and_status.md R143), the invariants of 10_state.md R39, and the schedule of pin moments
that issues operations to a ready sink. -/

namespace Sys2Proof.Machine

/-! ### Sequences of operations -/

/-- The operations of a list, one after the other, as a host that waits for each sees them (20_memory.md R46, R48). -/
def runOps : List Instr → State → Result
  | [], s => .next s
  | i :: rest, s =>
    match exec i s with
    | .next t => runOps rest t
    | .fault f => .fault f
    | .refused r => .refused r

/-- The pseudo-operation `FRAME p` (30_encoding.md R77). -/
def frameOps (p : List Byte) : List Instr := [.frmOpen] ++ p.map .frmData ++ [.frmClose]

/-- The pseudo-operation `CRC32 p`, without the final `RDSR` (30_encoding.md R77). -/
def crcOps (p : List Byte) : List Instr := .crcInit :: p.map .crcByte

/-- What the operation returns on the result bus: the register of a successful `RDSR`, nothing for any other row
(R142). -/
def State.returned (s : State) (i : Instr) : Option ResWord :=
  match i with
  | .rdsr n => s.statusReg n
  | _ => none

/-! ### The end of a run -/

/-- A run ends well when, after the last operation, no fault was recorded and no frame is left open (R194). The last
operation is over only when the sink has taken all its bytes (20_memory.md R46), so none is still on offer. -/
def State.endsWell (s : State) : Bool := s.offer.isEmpty && s.ecause == .noFault && s.ph == .idle

/-! ### The legality matrix -/

/-- The columns of the matrix (R143). The DGRAM/OPEN column "cannot occur". -/
inductive Column where
  | halted
  | streamIdle
  | streamOpen
  | dgramIdle
deriving DecidableEq, Repr

/-- A cell of the matrix (R143). -/
inductive Verdict where
  | ok
  | raises (c : Cause)
  | refused
deriving DecidableEq, Repr

/-- The column a state is in, where `MODE` = DGRAM implies `PH` = IDLE (R143). -/
def State.column (s : State) : Column :=
  if s.err then .halted
  else match s.mode, s.ph with
    | .stream, .idle => .streamIdle
    | .stream, .opened => .streamOpen
    | .dgram, _ => .dgramIdle

/-- A row of the matrix from its four cells, in the order of the table's columns. -/
def row (halted streamIdle streamOpen dgramIdle : Verdict) : Column → Verdict
  | .halted => halted
  | .streamIdle => streamIdle
  | .streamOpen => streamOpen
  | .dgramIdle => dgramIdle

/-- The matrix, row by row as the table has it (R143); `hasReport` is `RLEN` != 0. Rows that are not of the command
port have no row there and are given `ok`. -/
def legality (i : Instr) (hasReport : Bool) : Column → Verdict :=
  match i with
  | .crcInit => row .refused .ok (.raises .seq) .ok
  | .crcByte _ => row .refused .ok (.raises .seq) .ok
  | .rdsr n =>
    if n.toNat ≤ 5 then row .ok .ok .ok .ok
    else row .refused (.raises .illegal) (.raises .illegal) (.raises .illegal)
  | .frmOpen => row .refused .ok (.raises .seq) (.raises .mode)
  | .frmData _ => row .refused (.raises .seq) .ok (.raises .mode)
  | .frmClose => row .refused (.raises .seq) .ok (.raises .mode)
  | .encMouse _ => row .refused .ok .ok .ok
  | .encGpad _ => row .refused .ok .ok .ok
  | .send =>
    if hasReport then row .refused .ok (.raises .seq) .ok
    else row .refused (.raises .noReport) (.raises .seq) (.raises .noReport)
  | .reserved0 => row .refused (.raises .illegal) (.raises .illegal) (.raises .illegal)
  | .reserved7 => row .refused (.raises .illegal) (.raises .illegal) (.raises .illegal)
  | .reservedB => row .refused (.raises .illegal) (.raises .illegal) (.raises .illegal)
  | .reservedC => row .refused (.raises .illegal) (.raises .illegal) (.raises .illegal)
  | .reservedD => row .refused (.raises .illegal) (.raises .illegal) (.raises .illegal)
  | .reservedE => row .refused (.raises .illegal) (.raises .illegal) (.raises .illegal)
  | .reservedF => row .refused (.raises .illegal) (.raises .illegal) (.raises .illegal)
  | .mouseReport _ => row .ok .ok .ok .ok
  | .gamepadReport _ => row .ok .ok .ok .ok
  | .symEnd => row .ok .ok .ok .ok
  | .symLit _ => row .ok .ok .ok .ok
  | .symEend => row .ok .ok .ok .ok
  | .symEesc => row .ok .ok .ok .ok

/-! ### Invariants -/

/-- What `RB` holds for each `RLEN`: zeros since reset (R25), a mouse report (R84), or a gamepad report and a zero
byte (R91). It gives clause (ii) of R39. -/
def State.bufferHoldsReport (s : State) : Prop :=
  match s.rlen with
  | .empty => s.rb.toList = List.replicate 13 0#8
  | .mouse => ∃ m, s.rb.toList = mouseReport m
  | .gpad => ∃ g, s.rb.toList = gamepadReport g ++ [0#8]

/-- The invariants of R39 that are not already in the types: (ii) as `bufferHoldsReport`, (iii) a DGRAM block is IDLE, the
bound on the configuration's `AXIS_IN_W`; and the bound of 20_memory.md R46, at most 36 bytes of one operation on offer.
Clause (i) is the type `ReportLen`. -/
structure State.Inv (s : State) : Prop where
  buffer : s.bufferHoldsReport
  dgramIdle : s.mode = .dgram → s.ph = .idle
  offerBound : s.offer.length ≤ 36
  axisWidth : 10 ≤ s.axisInW

/-! ### Operations on the pins -/

/-- A moment at which the host presents the command word `w` and the sink is ready. -/
def commandPins (m : Mode) (w : CmdWord) : Input :=
  .pins { rst := false, modeStrap := m, cmdValid := true, cmd := w, outReady := true }

/-- A moment at which the host presents nothing and the sink is ready. -/
def readyPins (m : Mode) : Input :=
  .pins { rst := false, modeStrap := m, cmdValid := false, cmd := 0, outReady := true }

/-- A moment of reset with the strap at `m`. -/
def resetPins (m : Mode) : Input :=
  .pins { rst := true, modeStrap := m, cmdValid := false, cmd := 0, outReady := true }

/-- Words issued one after the other to a ready sink: each followed by 36 moments, enough for the bytes of any
operation (20_memory.md R46). -/
def schedule (m : Mode) (ws : List CmdWord) : List Input :=
  ws.flatMap fun w => commandPins m w :: List.replicate 36 (readyPins m)

/-- The sink has taken everything on offer. -/
def State.drained (s : State) : State := { s with out := s.emitted, offer := [] }

end Sys2Proof.Machine
end

