-- ==== Sys2Proof/Certificates/Slice0/Obligations.lean ====
section
/-! DEFINITION. What is claimed of the model. Each statement names the rules of spec/ it formalises; its entry in
OBLIGATIONS.json says which it states whole. -/

open Sys2Proof Sys2Proof.Machine

/-! ### Encodings -/

/-- For every `AXIS_IN_W`: every command word that agrees with an instruction's encoding on the format's significant bits
decodes to that instruction, whatever the bits above (R60 to R66). -/
def Obligations.CommandWordRoundTripIgnoresHighBits : Prop :=
  ∀ (axisInW : Nat) (i : Instr) (cw w : CmdWord), 10 ≤ axisInW → i.wf axisInW = true →
    encode axisInW i = .command cw →
    (∀ k, k < significantBits axisInW i → w.testBit k = cw.testBit k) → decodeCommand axisInW w = i

/-- For every `AXIS_IN_W`: every command word stands for a well-formed instruction of the command port, and its
significant bits are the ones that instruction is encoded with; no other bit of an encoding is set, and the significant
bits lie within `CMD_W`, those of format M from `AXIS_IN_W` 13 up (R7, R60 to R66; notes/assumptions/21.md). -/
def Obligations.EveryCommandWordEncodesItsInstruction : Prop :=
  ∀ (axisInW : Nat) (w : CmdWord), 10 ≤ axisInW →
    (decodeCommand axisInW w).isCommand = true ∧ (decodeCommand axisInW w).wf axisInW = true ∧
    (∃ cw, encode axisInW (decodeCommand axisInW w) = .command cw ∧
      cw < 2 ^ significantBits axisInW (decodeCommand axisInW w) ∧
      ∀ k, k < significantBits axisInW (decodeCommand axisInW w) → w.testBit k = cw.testBit k) ∧
    (13 ≤ axisInW ∨ (∀ m, decodeCommand axisInW w ≠ .encMouse m) →
      significantBits axisInW (decodeCommand axisInW w) ≤ Config.cmdW axisInW)

/-- Report layouts and stream symbols decode to the instruction they encode; a symbol does so whatever bytes follow
it (R70, R71, R73). -/
def Obligations.ReportAndSymbolRoundTrip : Prop :=
  ∀ (axisInW : Nat) (i : Instr), i.isCommand = false → i.wf axisInW = true →
    decode axisInW (encode axisInW i) = .ok i ∧
    ∀ bytes rest, encode axisInW i = .symbol bytes → decodeSymbol (bytes ++ rest) = .ok (i, rest)

/-- Words written out by the spec decode to the operations it gives them for (R62 to R65, 95_test_vectors.md), and one
format G word written out from R65 for an `AXIS_IN_W` of 10: lx 256 in bits 31:22, ly -1 in 41:32, rx 128 in 51:42,
ry -512 in 61:52. -/
def Obligations.SpecWordsDecode : Prop :=
  decodeCommand 16 0xC05 = .frmData 0xC0 ∧ decodeCommand 16 0x612 = .crcByte 0x61 ∧
  decodeCommand 16 0x3FF612 = .crcByte 0x61 ∧ decodeCommand 16 0x33 = .rdsr 3 ∧
  decodeCommand 16 0x7FFE000218
    = .encMouse { left := true, right := false, middle := false, x := 4, y := -4, vscroll := 0, hscroll := 0 } ∧
  decodeCommand 16 0x0 = .reserved0 ∧ decodeCommand 16 0xA = .send ∧
  decode 16 (.symbol [0xDB, 0xDC]) = .ok .symEend ∧
  decodeCommand 10 (0x9 ||| 256 <<< 22 ||| 0x3FF <<< 32 ||| 128 <<< 42 ||| 0x200 <<< 52)
    = .encGpad
        { y := false, b := false, a := false, x := false, l := false, r := false, zl := false, zr := false,
          minus := false, plus := false, ls := false, rs := false, home := false, capture := false,
          left := false, right := false, up := false, down := false, lx := 256, ly := -1, rx := 128, ry := -512 }

/-- The frame layout of R74: END, one data symbol per payload byte in payload order, one data symbol per checksum byte
least significant first, END; the checksum is of the raw payload. -/
def Obligations.FrameIsItsSymbols : Prop :=
  ∀ p : List Byte,
    frame p = symbolBytes .symEnd ++ p.flatMap (fun b => symbolBytes (symbolOf b))
      ++ (le32 (crc32 p)).flatMap (fun b => symbolBytes (symbolOf b)) ++ symbolBytes .symEnd ∧
    ∀ (axisInW : Nat) (b : Byte), (symbolOf b).wf axisInW = true ∧ symbolOf b ∈ [.symLit b, .symEend, .symEesc]

/-! ### Reports -/

/-- R93: fixed lengths and headers, and no header byte is END or ESC, so none is stuffed. -/
def Obligations.ReportsHaveFixedLengthAndHeader : Prop :=
  (∀ m, (mouseReport m).length = 13 ∧ (mouseReport m).take 4 = [1, 0, 9, 1]) ∧
  (∀ g, (gamepadReport g).length = 12 ∧ (gamepadReport g).take 4 = [1, 2, 8, 0]) ∧
  (∀ b ∈ [1, 0, 9, 1, 2, 8], esc b = [b])

/-- R94: a receiver recovers the mouse snapshot exactly and `mouse_report` is injective; `gamepad_report` is not, for
the dpad and for clamped axes. -/
def Obligations.MouseReportRecoversItsSnapshot : Prop :=
  (∀ m, parseReport (mouseReport m) = some (.mouse m)) ∧
  (∀ m m', mouseReport m = mouseReport m' → m = m') ∧
  (∀ g : GamepadSnapshot, gamepadReport { g with left := false, right := false, up := false, down := false }
      = gamepadReport { g with left := true, right := true, up := true, down := true }) ∧
  (∀ g : GamepadSnapshot, gamepadReport { g with lx := 255 } = gamepadReport { g with lx := 256 })

/-- Parsing a gamepad report gives its packed bytes, and they are bytes that the layout allows: bits 7:6 of `buttons2`
0, a dpad code 0..7 or 15 (R71, R72, R157). -/
def Obligations.GamepadReportParsesToPackedBytes : Prop :=
  ∀ g : GamepadSnapshot, ∃ r : GamepadReport,
    parseReport (gamepadReport g) = some (.gamepad r) ∧ (∀ axisInW, (Instr.gamepadReport r).wf axisInW = true) ∧
    r = { buttons1 := gpButtons1 g, buttons2 := gpButtons2 g, dpad := dpadCode g.left g.right g.up g.down,
          lx := clampAxis g.lx, ly := clampAxis g.ly, rx := clampAxis g.rx, ry := clampAxis g.ry }

/-- The bits of the button bytes are the Booleans, in the document's order, and the rest are 0 (R82, R86, R87). -/
def Obligations.ButtonBytesHoldTheirBits : Prop :=
  (∀ (m : MouseSnapshot) (k : Nat),
    (mouseButtons m).getLsbD k = [m.left, m.right, m.middle].getD k false) ∧
  (∀ (g : GamepadSnapshot) (k : Nat),
    (gpButtons1 g).getLsbD k = [g.y, g.b, g.a, g.x, g.l, g.r, g.zl, g.zr].getD k false) ∧
  (∀ (g : GamepadSnapshot) (k : Nat),
    (gpButtons2 g).getLsbD k = [g.minus, g.plus, g.ls, g.rs, g.home, g.capture].getD k false)

/-- The sixteen rows of the dpad table, columns down, up, right, left (R88). -/
def Obligations.DpadTableRows : Prop :=
  ∀ left right up down : Bool, dpadCode left right up down =
    match down, up, right, left with
    | false, false, false, false => 15
    | false, false, false, true => 6
    | false, false, true, false => 2
    | false, false, true, true => 15
    | false, true, false, false => 0
    | false, true, false, true => 7
    | false, true, true, false => 1
    | false, true, true, true => 0
    | true, false, false, false => 4
    | true, false, false, true => 5
    | true, false, true, false => 3
    | true, false, true, true => 4
    | true, true, false, false => 15
    | true, true, false, true => 6
    | true, true, true, false => 2
    | true, true, true, true => 15

/-- R89: an axis operand of any width saturates to 0..255 by its signed value; and for every `AXIS_IN_W` of at least 10
the document's test points, and with 16 bits the extremes, are read back from a format G word as they are (R7). -/
def Obligations.AxisClampSaturates : Prop :=
  (∀ i : Int,
    (i < 0 → clampAxis i = 0x00) ∧ (255 < i → clampAxis i = 0xFF) ∧
    (0 ≤ i → i ≤ 255 → ((clampAxis i).toNat : Int) = i)) ∧
  (∀ (axisInW k : Nat) (w : CmdWord),
    axisField axisInW k w = (BitVec.ofNat axisInW (w / 2 ^ (22 + k * axisInW))).toInt) ∧
  (∀ (axisInW k : Nat) (i : Int), 10 ≤ axisInW → i ∈ [-1, 256, 128, 0, 255] →
    axisField axisInW k (placeAxis axisInW k i) = i) ∧
  (∀ k : Nat, axisField 16 k (placeAxis 16 k (-32768)) = -32768 ∧ axisField 16 k (placeAxis 16 k 32767) = 32767) ∧
  clampAxis (-1) = 0 ∧ clampAxis 256 = 255 ∧ clampAxis 128 = 128 ∧ clampAxis 0 = 0x00 ∧ clampAxis 255 = 0xFF ∧
  clampAxis (-32768) = 0x00 ∧ clampAxis 32767 = 0xFF

/-! ### The checksum -/

/-- Absorbing a fixed byte is a bijection on accumulator values (R102, whose constants are the spec's general knowledge,
notes/assumptions/6.md). -/
def Obligations.CrcUpdateIsBijective : Prop :=
  ∀ b : Byte, Function.Bijective (fun c => crcUpdate c b)

/-- The constants are the spec's general knowledge (R100, notes/assumptions/6.md). R105: the table form equals the bitwise form for every accumulator value and byte; the entries it lists. -/
def Obligations.CrcTableFormAgrees : Prop :=
  (∀ (c : Word32) (b : Byte), crcTable ((c ^^^ b.setWidth 32).setWidth 8) ^^^ (c >>> 8) = crcUpdate c b) ∧
  (∀ n : Byte, crcTable n = iterate crcShift 8 (n.setWidth 32)) ∧
  crcTable 0 = 0x00000000 ∧ crcTable 1 = 0x77073096 ∧ crcTable 2 = 0xEE0E612C ∧ crcTable 3 = 0x990951BA ∧
  crcTable 4 = 0x076DC419 ∧ crcTable 5 = 0x706AF48F ∧ crcTable 6 = 0xE963A535 ∧ crcTable 7 = 0x9E6495A3 ∧
  crcTable 8 = 0x0EDB8832 ∧ crcTable 15 = 0x90BF1D91 ∧ crcTable 128 = 0xEDB88320 ∧
  crcTable 192 = 0x9B64C2B0 ∧ crcTable 219 = 0x11010B5C ∧ crcTable 255 = 0x2D02EF8D

/-- The constants are the spec's general knowledge (R100, notes/assumptions/6.md). R106: at every step the most-significant-bit-first accumulator is the bit reversal of the other form's, and the two
forms give the same checksum. -/
def Obligations.CrcMsbFirstFormAgrees : Prop :=
  (∀ s : List Byte, s.foldl crcUpdateMsb 0xFFFFFFFF = (crcAbsorb 0xFFFFFFFF s).reverse) ∧
  (∀ s : List Byte, crc32Msb s = crc32 s)

/-- R110: a receiver compares the recomputed checksum with the four trailing bytes; the residue: absorbing a payload and
then its own four checksum bytes leaves one constant, whatever the payload. The constants are the spec's general
knowledge (notes/assumptions/6.md). -/
def Obligations.CrcResidueIsConstant : Prop :=
  (∀ p : List Byte, crcAbsorb 0xFFFFFFFF (p ++ le32 (crc32 p)) = 0xDEBB20E3 ∧
    crc32 (p ++ le32 (crc32 p)) = 0x2144DF1C ∧ crc32 [0x00, 0x00, 0x00, 0x00] = 0x2144DF1C) ∧
  (∀ p t : List Byte, t.length = 4 → check (p ++ t) = if le32 (crc32 p) = t then some p else none)

/-- The values of R109, under the parameters that are the spec's general knowledge (notes/assumptions/6.md). -/
def Obligations.CrcCheckValues : Prop :=
  (crc32 [] = 0x00000000 ∧ le32 (crc32 []) = [0x00, 0x00, 0x00, 0x00]) ∧
  (crc32 [0x31, 0x32, 0x33, 0x34, 0x35, 0x36, 0x37, 0x38, 0x39] = 0xCBF43926 ∧
    le32 0xCBF43926 = [0x26, 0x39, 0xF4, 0xCB]) ∧
  (crc32 [0x00] = 0xD202EF8D ∧ le32 0xD202EF8D = [0x8D, 0xEF, 0x02, 0xD2]) ∧
  (crc32 [0xFF] = 0xFF000000 ∧ le32 0xFF000000 = [0x00, 0x00, 0x00, 0xFF]) ∧
  (crc32 [0x61] = 0xE8B7BE43 ∧ le32 0xE8B7BE43 = [0x43, 0xBE, 0xB7, 0xE8]) ∧
  (crc32 [0x00, 0x00] = 0x41D912FF ∧ le32 0x41D912FF = [0xFF, 0x12, 0xD9, 0x41]) ∧
  (crc32 [0x00, 0x00, 0x00, 0x00] = 0x2144DF1C ∧ le32 0x2144DF1C = [0x1C, 0xDF, 0x44, 0x21]) ∧
  (crc32 [0xC0] = 0x49662D3D ∧ le32 0x49662D3D = [0x3D, 0x2D, 0x66, 0x49]) ∧
  (crc32 [0xDB] = 0xC303E4D1 ∧ le32 0xC303E4D1 = [0xD1, 0xE4, 0x03, 0xC3]) ∧
  (crc32 [0xC0, 0xDB, 0xC0, 0xDB] = 0x0C2E37D9 ∧ le32 0x0C2E37D9 = [0xD9, 0x37, 0x2E, 0x0C]) ∧
  (crc32 [0x01, 0x00, 0x09, 0x01, 0x01, 0x04, 0x00, 0xFC, 0xFF, 0x00, 0x00, 0x00, 0x00] = 0x7D68CEEB ∧
    le32 0x7D68CEEB = [0xEB, 0xCE, 0x68, 0x7D])

/-! ### Byte stuffing and its inverse -/

/-- R121 and R122: `esc` changes exactly two byte values and never yields 0xC0; `escaped` works byte by byte, appends,
and at most doubles the length. -/
def Obligations.EscapingIsByteByByte : Prop :=
  esc 0xC0 = [0xDB, 0xDC] ∧ esc 0xDB = [0xDB, 0xDD] ∧ esc 0xDC = [0xDC] ∧ esc 0xDD = [0xDD] ∧
  (∀ b : Byte, b ≠ 0xC0 → b ≠ 0xDB → esc b = [b]) ∧ (∀ b : Byte, 0xC0#8 ∉ esc b) ∧
  (∀ s, escaped s = (s.map esc).flatten) ∧ escaped [] = [] ∧
  (∀ s t, escaped (s ++ t) = escaped s ++ escaped t) ∧
  (∀ s, s.length ≤ (escaped s).length ∧ (escaped s).length ≤ 2 * s.length) ∧
  escaped [0xC0, 0xDB, 0xC0, 0xDB] = [0xDB, 0xDC, 0xDB, 0xDD, 0xDB, 0xDC, 0xDB, 0xDD] ∧
  escaped [0xDB, 0xDC] = [0xDB, 0xDD, 0xDC]

/-- R128, over any checksum function: (a) the only 0xC0 of a frame are its first and last byte, (b) every 0xDB is
followed by 0xDC or 0xDD, (c) the length bounds, (d) a 0xC0 or 0xDB to stuff leaves a 0xDB, (e) injectivity. -/
def Obligations.FramesAreDelimitedAndBounded : Prop :=
  frame [0xC0, 0xDB, 0xC0, 0xDB]
    = [0xC0, 0xDB, 0xDC, 0xDB, 0xDD, 0xDB, 0xDC, 0xDB, 0xDD, 0xD9, 0x37, 0x2E, 0x0C, 0xC0] ∧
  ∀ (crc : List Byte → Word32) (p : List Byte),
    (∃ inner, frameWith crc p = [0xC0] ++ inner ++ [0xC0] ∧ 0xC0#8 ∉ inner ∧
      ∀ a c, inner = a ++ 0xDB :: c → ∃ e c', c = e :: c' ∧ (e = 0xDC ∨ e = 0xDD)) ∧
    p.length + 6 ≤ (frameWith crc p).length ∧ (frameWith crc p).length ≤ 2 * p.length + 10 ∧
    ((∀ b ∈ p ++ le32 (crc p), b ≠ 0xC0 ∧ b ≠ 0xDB) → (frameWith crc p).length = p.length + 6) ∧
    ((∃ b ∈ p ++ le32 (crc p), b = 0xC0 ∨ b = 0xDB) → 0xDB#8 ∈ frameWith crc p) ∧
    (∀ q, frameWith crc p = frameWith crc q → p = q)

/-- R129, over any checksum function: unescaping what stands between the END bytes gives the payload and its
checksum. -/
def Obligations.UnescapeRecoversPayloadAndChecksum : Prop :=
  (∀ (crc : List Byte → Word32) (p : List Byte),
    (stripEndMarkers (frameWith crc p)).bind unescape = some (p ++ le32 (crc p))) ∧
  (∀ p : List Byte, check (p ++ le32 (crc32 p)) = some p)

/-- R154, over any checksum function: `deframe_one` accepts exactly the frames, and gives back the payload; and
`unescape` accepts exactly the images of `escaped` among the sequences without END (R152). -/
def Obligations.DeframeOneAcceptsExactlyFrames : Prop :=
  (∀ (crc : List Byte → Word32) (f p : List Byte), deframeOneWith crc f = some p ↔ f = frameWith crc p) ∧
  (∀ c s : List Byte, 0xC0#8 ∉ c → (unescape c = some s ↔ c = escaped s))

/-- R156 (a), with noise before the first END (R155): a stream of frames gives exactly the payloads, in order. -/
def Obligations.StreamOfFramesDeframes : Prop :=
  ∀ (noise : List Byte) (ps : List (List Byte)), 0xC0#8 ∉ noise →
    deframeStream (noise ++ (ps.map frame).flatten) = ps

/-! ### The operations -/

/-- `CRC.INIT` (R107). -/
def Obligations.CrcInitStartsAChecksum : Prop :=
  (∀ (axisInW : Nat) (w : CmdWord), w % 16 = 0x1 → decodeCommand axisInW w = .crcInit) ∧
  (∀ s : State, s.ecause = .noFault → s.ph = .idle →
    exec .crcInit s = .next { s with crc := 0xFFFFFFFF }) ∧
  (∀ s : State, s.ecause = .noFault → s.ph = .opened →
    exec .crcInit s = .next { s with ecause := .seq }) ∧
  (∀ s : State, s.ecause ≠ .noFault → exec .crcInit s = .next s)

/-- `CRC.BYTE b` (R108), its one-operation part. -/
def Obligations.CrcByteAbsorbsOneByte : Prop :=
  (∀ (axisInW : Nat) (w : CmdWord), w % 16 = 0x2 → decodeCommand axisInW w = .crcByte (BitVec.ofNat 8 (w / 16))) ∧
  (∀ (b : Byte) (s : State), s.ecause = .noFault → s.ph = .idle →
    exec (.crcByte b) s = .next { s with crc := crcUpdate s.crc b }) ∧
  (∀ (b : Byte) (s : State), s.ecause = .noFault → s.ph = .opened →
    exec (.crcByte b) s = .next { s with ecause := .seq }) ∧
  (∀ (b : Byte) (s : State), s.ecause ≠ .noFault → exec (.crcByte b) s = .next s) ∧
  crcUpdate 0xFFFFFFFF 0x61 = 0x174841BC

/-- A host-driven checksum equals Level F (R108): after `CRC.INIT` and a `CRC.BYTE` for each byte, `CRCSUM` reads
`crc32` of the bytes, `CRCACC` its complement, and nothing else has changed. -/
def Obligations.HostChecksumIsCrc32 : Prop :=
  ∀ (bs : List Byte) (s : State), s.ecause = .noFault → s.ph = .idle →
    ∃ t, runOps (crcOps bs) s = .next t ∧ t.crcSum = crc32 bs ∧ t.crcAcc = crcFinal (crc32 bs) ∧
      t = { s with crc := t.crc }

/-- `FRM.OPEN` (R124). -/
def Obligations.FrmOpenStartsAFrame : Prop :=
  (∀ (axisInW : Nat) (w : CmdWord), w % 16 = 0x4 → decodeCommand axisInW w = .frmOpen) ∧
  (∀ s : State, s.ecause = .noFault → s.mode = .stream → s.ph = .idle →
    exec .frmOpen s = .next { s with
      offer := s.offer ++ [{ byte := 0xC0, last := false }], crc := 0xFFFFFFFF, ph := .opened }) ∧
  (∀ s : State, s.ecause = .noFault → s.mode = .dgram → exec .frmOpen s = .next { s with ecause := .mode }) ∧
  (∀ s : State, s.ecause = .noFault → s.mode = .stream → s.ph = .opened →
    exec .frmOpen s = .next { s with ecause := .seq }) ∧
  (∀ s : State, s.ecause ≠ .noFault → exec .frmOpen s = .next s)

/-- `FRM.DATA b` (R125): the raw byte into the checksum, its stuffed form onto OUT. -/
def Obligations.FrmDataStuffsOneByte : Prop :=
  (∀ (axisInW : Nat) (w : CmdWord), w % 16 = 0x5 → decodeCommand axisInW w = .frmData (BitVec.ofNat 8 (w / 16))) ∧
  (∀ (b : Byte) (s : State), s.ecause = .noFault → s.mode = .stream → s.ph = .opened →
    exec (.frmData b) s = .next { s with
      crc := crcUpdate s.crc b
      offer := s.offer ++ (esc b).map fun e => { byte := e, last := false } }) ∧
  (∀ (b : Byte) (s : State), s.ecause = .noFault → s.mode = .dgram →
    exec (.frmData b) s = .next { s with ecause := .mode }) ∧
  (∀ (b : Byte) (s : State), s.ecause = .noFault → s.mode = .stream → s.ph = .idle →
    exec (.frmData b) s = .next { s with ecause := .seq }) ∧
  (∀ (b : Byte) (s : State), s.ecause ≠ .noFault → exec (.frmData b) s = .next s) ∧
  crcUpdate 0xFFFFFFFF 0xC0 = 0xB699D2C2

/-- `FRM.CLOSE` (R126): the stuffed trailer of the checksum and the closing END, `last` on it alone; `CRC` is not
written. -/
def Obligations.FrmCloseEndsTheFrame : Prop :=
  (∀ (axisInW : Nat) (w : CmdWord), w % 16 = 0x6 → decodeCommand axisInW w = .frmClose) ∧
  (∀ s : State, s.ecause = .noFault → s.mode = .stream → s.ph = .opened →
    exec .frmClose s = .next { s with
      offer := s.offer
        ++ (escaped (le32 (s.crc ^^^ 0xFFFFFFFF))).map (fun e => { byte := e, last := false })
        ++ [{ byte := 0xC0, last := true }]
      ph := .idle }) ∧
  (∀ s : State, s.ecause = .noFault → s.mode = .dgram → exec .frmClose s = .next { s with ecause := .mode }) ∧
  (∀ s : State, s.ecause = .noFault → s.mode = .stream → s.ph = .idle →
    exec .frmClose s = .next { s with ecause := .seq }) ∧
  (∀ s : State, s.ecause ≠ .noFault → exec .frmClose s = .next s)

/-- R127: `FRAME p` by operations appends exactly the bytes of `frame(p)`, `last` on the final one only, leaves `CRC`
the complement of the checksum, and changes nothing else. -/
def Obligations.FrameOperationsEmitTheFrame : Prop :=
  ∀ (p : List Byte) (s : State), s.mode = .stream → s.ph = .idle → s.ecause = .noFault →
    ∃ t, runOps (frameOps p) s = .next t ∧ t.emitted = s.emitted ++ withLast (frame p) ∧
      t.ph = .idle ∧ t.ecause = .noFault ∧ t.crc = crc32 p ^^^ 0xFFFFFFFF ∧
      t = { s with offer := t.offer, crc := t.crc }

/-- `ENC.MOUSE` (R84): `RB` is the mouse report, `RLEN` 13, nothing else changes, in either phase and either mode. -/
def Obligations.EncMouseWritesTheReport : Prop :=
  (∀ (axisInW : Nat) (w : CmdWord), w % 16 = 0x8 → decodeCommand axisInW w = .encMouse (mouseFields w)) ∧
  (∀ (m : MouseSnapshot) (s : State), s.ecause = .noFault →
    ∃ rb, rb.toList = mouseReport m ∧ exec (.encMouse m) s = .next { s with rb := rb, rlen := .mouse }) ∧
  (∀ (m : MouseSnapshot) (s : State), s.ecause ≠ .noFault → exec (.encMouse m) s = .next s) ∧
  mouseReport { left := true, right := false, middle := false, x := 4, y := -4, vscroll := 0, hscroll := 0 }
    = [0x01, 0x00, 0x09, 0x01, 0x01, 0x04, 0x00, 0xFC, 0xFF, 0x00, 0x00, 0x00, 0x00]

/-- `ENC.GPAD` (R91): `RB[0:12]` is the gamepad report, `RB[12]` 0x00, `RLEN` 12, nothing else changes. -/
def Obligations.EncGpadWritesTheReport : Prop :=
  (∀ (axisInW : Nat) (w : CmdWord), w % 16 = 0x9 → decodeCommand axisInW w = .encGpad (gamepadFields axisInW w)) ∧
  (∀ (g : GamepadSnapshot) (s : State), s.ecause = .noFault →
    ∃ rb, rb.toList = gamepadReport g ++ [0x00] ∧
      exec (.encGpad g) s = .next { s with rb := rb, rlen := .gpad }) ∧
  (∀ (g : GamepadSnapshot) (s : State), s.ecause ≠ .noFault → exec (.encGpad g) s = .next s) ∧
  gamepadReport
    { y := false, b := false, a := true, x := false, l := false, r := false, zl := false, zr := false,
      minus := false, plus := false, ls := false, rs := false, home := false, capture := false,
      left := false, right := true, up := true, down := false, lx := 256, ly := -1, rx := 128, ry := 128 }
    = [0x01, 0x02, 0x08, 0x00, 0x04, 0x00, 0x01, 0xFF, 0x00, 0x80, 0x80, 0x00]

/-- R92: `RB` and `RLEN` after an encode depend on the command word alone, and encoding twice is encoding once. -/
def Obligations.EncodingIsAFunctionOfTheWord : Prop :=
  ∀ (i : Instr), (∃ m, i = .encMouse m) ∨ (∃ g, i = .encGpad g) → ∀ s s' : State,
    s.ecause = .noFault → s'.ecause = .noFault →
    ∃ t t', exec i s = .next t ∧ exec i s' = .next t' ∧ t.rb = t'.rb ∧ t.rlen = t'.rlen ∧ exec i t = .next t

/-- `SEND` (R141): exactly `send(MODE, RB[0:RLEN])` with `last` on the final byte only; in STREAM mode `CRC` keeps the
report's accumulator, in DGRAM mode it is not touched. -/
def Obligations.SendHandsOverTheReport : Prop :=
  (∀ (axisInW : Nat) (w : CmdWord), w % 16 = 0xA → decodeCommand axisInW w = .send) ∧
  (∀ s : State, s.ecause = .noFault → s.ph = .idle → s.rlen ≠ .empty →
    exec .send s = .next { s with
      offer := s.offer ++ withLast (send s.mode (s.rb.toList.take s.rlen.toNat))
      crc := if s.mode = .stream then crc32 (s.rb.toList.take s.rlen.toNat) ^^^ 0xFFFFFFFF else s.crc }) ∧
  (∀ s : State, s.ecause = .noFault → s.ph = .opened → exec .send s = .next { s with ecause := .seq }) ∧
  (∀ s : State, s.ecause = .noFault → s.ph = .idle → s.rlen = .empty →
    exec .send s = .next { s with ecause := .noReport }) ∧
  (∀ s : State, s.ecause ≠ .noFault → exec .send s = .next s)

/-- STREAM `SEND` is exactly `FRM.OPEN`, a `FRM.DATA` for each report byte, `FRM.CLOSE` (R141, R127). -/
def Obligations.StreamSendIsTheFrameOperations : Prop :=
  ∀ s : State, s.ecause = .noFault → s.mode = .stream → s.ph = .idle → s.rlen ≠ .empty →
    exec .send s = runOps (frameOps s.report) s

/-- `RDSR n` (R142): the six registers, in either phase, either mode and while halted; a reserved number raises
ILLEGAL, or is refused while halted; nothing but the result changes. -/
def Obligations.RdsrReturnsTheRegister : Prop :=
  (∀ (axisInW : Nat) (w : CmdWord), w % 16 = 0x3 → decodeCommand axisInW w = .rdsr (BitVec.ofNat 4 (w / 16))) ∧
  (∀ s : State, exec (.rdsr 0) s = .next { s with results := s.results ++ [s.mode.code.setWidth 104] }) ∧
  (∀ s : State, exec (.rdsr 1) s = .next { s with results := s.results ++
    [BitVec.ofNat 104 ((if s.ecause = .noFault then 0 else 1) + 2 * s.ph.code.toNat + 16 * s.rlen.toNat)] }) ∧
  (∀ s : State, exec (.rdsr 2) s = .next { s with results := s.results ++ [s.ecause.code.setWidth 104] }) ∧
  (∀ s : State, exec (.rdsr 3) s
    = .next { s with results := s.results ++ [(s.crc ^^^ 0xFFFFFFFF).setWidth 104] }) ∧
  (∀ s : State, exec (.rdsr 4) s = .next { s with results := s.results ++ [s.crc.setWidth 104] }) ∧
  (∀ s : State, ∃ v : ResWord, exec (.rdsr 5) s = .next { s with results := s.results ++ [v] } ∧
    ∀ (k : Nat) (h : k < 13), v.extractLsb' (8 * k) 8 = s.rb[k]) ∧
  (∀ (n : BitVec 4) (s : State), 6 ≤ n.toNat → s.ecause = .noFault →
    exec (.rdsr n) s = .next { s with ecause := .illegal }) ∧
  (∀ (n : BitVec 4) (s : State), 6 ≤ n.toNat → s.ecause ≠ .noFault → exec (.rdsr n) s = .next s)

/-- The fields of `CFG`, `STATUS` and the `ECAUSE` register, reserved bits included (R29, R30, R31), and the level on
the `err` pin when `rst` is 0 (R177). -/
def Obligations.StatusRegisterFields : Prop :=
  ∀ s : State,
    s.cfgWord.getLsbD 0 = (s.mode == .dgram) ∧ (∀ k, 1 ≤ k → s.cfgWord.getLsbD k = false) ∧
    s.statusWord.getLsbD 0 = (s.ecause != .noFault) ∧ s.statusWord.getLsbD 1 = (s.ph == .opened) ∧
    s.statusWord.getLsbD 2 = false ∧ s.statusWord.getLsbD 3 = false ∧
    (s.statusWord.extractLsb' 4 4).toNat = s.rlen.toNat ∧
    s.ecauseWord.extractLsb' 0 3 = s.ecause.code ∧ (∀ k, 3 ≤ k → s.ecauseWord.getLsbD k = false) ∧
    (∀ p : Pins, p.rst = false → s.errPin p = (s.ecause != .noFault))

/-- R69: the seven reserved codes and the reserved `RDSR` numbers raise `OpFault(ILLEGAL)`, with no other effect, and are
refused while halted. -/
def Obligations.ReservedCodesRaiseIllegal : Prop :=
  (∀ (axisInW : Nat) (w : CmdWord),
    (w % 16 = 0x0 → decodeCommand axisInW w = .reserved0) ∧
    (w % 16 = 0x7 → decodeCommand axisInW w = .reserved7) ∧
    (w % 16 = 0xB → decodeCommand axisInW w = .reservedB) ∧
    (w % 16 = 0xC → decodeCommand axisInW w = .reservedC) ∧
    (w % 16 = 0xD → decodeCommand axisInW w = .reservedD) ∧
    (w % 16 = 0xE → decodeCommand axisInW w = .reservedE) ∧
    (w % 16 = 0xF → decodeCommand axisInW w = .reservedF)) ∧
  ∀ i : Instr,
    (i ∈ [Instr.reserved0, .reserved7, .reservedB, .reservedC, .reservedD, .reservedE, .reservedF] ∨
      ∃ n : BitVec 4, 6 ≤ n.toNat ∧ i = .rdsr n) →
    ∀ s : State,
      (s.ecause = .noFault → exec i s = .next { s with ecause := .illegal }) ∧
      (s.ecause ≠ .noFault → exec i s = .next s)

/-- The stream symbols and the report rows at the reference receiver: the bytes of a symbol go through the loop of R155,
a parsed report (R157) is recorded, and nothing else changes. The receiver as an agent and the record are the model's
choice (notes/assumptions/8.md). -/
def Obligations.SymbolsAndReportsReachTheReceiver : Prop :=
  ∀ s : State,
    exec .symEnd s = .next { s with rx := s.rx.byte 0xC0 } ∧
    (∀ b : Byte, exec (.symLit b) s = .next { s with rx := s.rx.byte b }) ∧
    exec .symEend s = .next { s with rx := (s.rx.byte 0xDB).byte 0xDC } ∧
    exec .symEesc s = .next { s with rx := (s.rx.byte 0xDB).byte 0xDD } ∧
    (∀ m : MouseSnapshot, exec (.mouseReport m) s
      = .next { s with rx := { s.rx with reports := s.rx.reports ++ [.mouse m] } }) ∧
    (∀ r : GamepadReport, exec (.gamepadReport r) s
      = .next { s with rx := { s.rx with reports := s.rx.reports ++ [.gamepad r] } })

/-- A data symbol inside a frame adds its bytes to the pending candidate, END outside one opens the next and END inside
one closes it: what R155 says of each byte, by symbol. The receiver as an agent is the model's choice
(notes/assumptions/8.md), and so is that an END which opens the next frame delivers a candidate whose closing END was
lost, where R155 and the example of R156 (b) differ (notes/assumptions/22.md). -/
def Obligations.SymbolsBuildAndCloseCandidates : Prop :=
  (∀ (b : Byte) (s : State), s.rx.inside = true →
    ∃ t, exec (symbolOf b) s = .next t ∧
      t = { s with rx := { s.rx with buf := s.rx.buf ++ esc b } }) ∧
  (∀ (b : Byte) (s : State), s.rx.inside = false → exec (symbolOf b) s = .next s) ∧
  (∀ (p : List Byte) (s : State), s.rx.inside = true → s.rx.buf = escaped (p ++ le32 (crc32 p)) →
    exec .symEnd s = .next { s with rx := { s.rx with frames := s.rx.frames ++ [p], buf := [] } }) ∧
  (∀ s : State, s.rx.buf = [] ∨ s.rx.inside = false →
    exec .symEnd s = .next { s with rx := { s.rx with buf := [], inside := true } })

/-! ### Legality, faults and the halted state -/

/-- The legality matrix (R143): refused is no effect at all, a cause is recorded and nothing else changes, and `ok`
completes with no fault. -/
def Obligations.LegalityMatrixDecidesOutcome : Prop :=
  ∀ (i : Instr) (s : State), i.isCommand = true → (s.mode = .dgram → s.ph = .idle) →
    match legality i s.hasReport s.column with
    | .refused => exec i s = .next s
    | .raises c => exec i s = .next { s with ecause := c }
    | .ok => ∃ t, exec i s = .next t ∧ t.ecause = s.ecause

/-- R172: taking a fault. An operation that changes `ECAUSE` does so from 0 to its cause, changes nothing else, and raises
the `err` level. -/
def Obligations.FaultEntryRecordsTheCauseAlone : Prop :=
  (∀ (i : Instr) (s t : State), i.isCommand = true → exec i s = .next t → t.ecause ≠ s.ecause →
    s.ecause = .noFault ∧ t = { s with ecause := t.ecause } ∧ t.emitted = s.emitted ∧ t.results = s.results ∧
      (∀ p : Pins, p.rst = false → t.errPin p = true)) ∧
  (∀ (c : Cause) (s : State), raiseOpFault c s = .next { s with ecause := c })

/-- R173: a halted block refuses every operation but `RDSR` of a defined register, for any sequence of operations; the
results it returns are those registers of the state it halted in; it still accepts what it refuses. -/
def Obligations.HaltedBlockOnlyReadsStatus : Prop :=
  ∀ (is : List Instr) (s : State), (∀ i ∈ is, i.isCommand = true) → s.ecause ≠ .noFault →
    (∃ rs, runOps is s = .next { s with results := s.results ++ rs } ∧ rs = is.filterMap s.returned) ∧
    (∀ p : Pins, p.rst = false → s.offer = [] → s.cmdReady p = true) ∧
    (∀ n : BitVec 4, n.toNat ≤ 5 → ∃ v, s.returned (.rdsr n) = some v)

/-- Only reset clears a fault (R26, R172, R173, R175): while halted, a step that is not a moment of reset keeps the
cause and every element of the block, and emits nothing; a run that stops there has not ended well (R194). That a
step is one input is the model's choice (notes/assumptions/2.md). -/
def Obligations.OnlyResetLeavesTheHaltedState : Prop :=
  ∀ s t : State, s.ecause ≠ .noFault → step s = .next t →
    (∀ p rest, s.inputs = .pins p :: rest → p.rst = false) →
    t.ecause = s.ecause ∧ t.emitted = s.emitted ∧ t.crc = s.crc ∧ t.ph = s.ph ∧ t.rb = s.rb ∧
      t.rlen = s.rlen ∧ t.mode = s.mode ∧ s.endsWell = false ∧ t.endsWell = false

/-! ### Steps -/

/-- What a reset moment does (R190): every element at its reset value, `MODE` at the strap, bytes on offer withdrawn,
nothing emitted, the outputs at rest; with priority over a command and over a halted state. That `MODE` follows the
strap at each such moment is the model's choice (notes/assumptions/4.md), and so are keeping the record of results
(notes/assumptions/7.md) and leaving the reference receiver untouched (notes/assumptions/9.md). The configuration's
`AXIS_IN_W` is no element that a reset writes (R39). -/
def Obligations.ResetMomentRestoresResetValues : Prop :=
  ∀ (s : State) (p : Pins) (rest : List Input), s.inputs = .pins p :: rest → p.rst = true →
    (s.cmdReady p = false ∧ s.outValid p = false ∧ s.errPin p = false) ∧
    ∃ t, step s = .next t ∧ t.crc = 0xFFFFFFFF ∧ t.ph = .idle ∧ t.rb.toList = List.replicate 13 0 ∧
      t.rlen = .empty ∧ t.ecause = .noFault ∧ t.mode = p.modeStrap ∧ t.axisInW = s.axisInW ∧
      t.offer = [] ∧ t.out = s.out ∧ t.results = s.results ∧ t.rx = s.rx ∧ t.inputs = rest

/-- The state after reset: the values of R37 for either strap and any `AXIS_IN_W`, the tuple S0 of R39, the register values
of R28; a reset gives every element that value and leaves OUT alone. That a reset also keeps the record of results
(notes/assumptions/7.md) and leaves the reference receiver untouched (notes/assumptions/9.md) is the model's choice. -/
def Obligations.ResetStateIsTheSpecs : Prop :=
  ∀ (m : Mode) (axisInW : Nat), ∃ s, s = State.resetWith m axisInW ∧ s.crc = 0xFFFFFFFF ∧ s.ph = .idle ∧
    s.rb.toList = [0, 0, 0, 0, 0, 0, 0, 0, 0, 0, 0, 0, 0] ∧ s.rlen = .empty ∧ s.ecause = .noFault ∧
    s.out = [] ∧ s.mode = m ∧ s.axisInW = axisInW ∧
    s.statusReg 0 = some (m.code.setWidth 104) ∧ s.statusReg 1 = some 0x00 ∧ s.statusReg 2 = some 0x00 ∧
    s.statusReg 3 = some 0x00000000 ∧ s.statusReg 4 = some 0xFFFFFFFF ∧ s.statusReg 5 = some 0 ∧
    ∀ u : State, u.axisInW = axisInW →
      u.resetTo m = { s with out := u.out, results := u.results, rx := u.rx, inputs := u.inputs }

/-- A step runs the instruction its input decodes to: an accepted command word, the first symbol of the bytes at the
receiver, a payload of a known layout. That a step is one input is the model's choice (notes/assumptions/2.md). -/
def Obligations.StepRunsTheDecodedInstruction : Prop :=
  (∀ (s : State) (p : Pins) (rest : List Input), s.inputs = .pins p :: rest →
    s.cmdReady p = true → p.cmdValid = true →
    step s = exec (decodeCommand s.axisInW p.cmd) { s with inputs := rest }) ∧
  (∀ (s : State) (bytes left : List Byte) (rest : List Input) (i : Instr), s.inputs = .wire bytes :: rest →
    decodeSymbol bytes = .ok (i, left) →
    step s = exec i { s with inputs := if left = [] then rest else .wire left :: rest }) ∧
  (∀ (s : State) (bytes : List Byte) (rest : List Input) (i : Instr), s.inputs = .payload bytes :: rest →
    decodeReport bytes = .ok i → step s = exec i { s with inputs := rest })

/-- The sink's handshake (R44, R51): with a byte on offer no operation is accepted; `out_ready` = 1 transfers exactly
the first pair, and `out_ready` = 0 changes nothing. -/
def Obligations.SinkHandshake : Prop :=
  ∀ (s : State) (p : Pins) (rest : List Input) (e : OutByte) (es : List OutByte),
    s.inputs = .pins p :: rest → p.rst = false → s.offer = e :: es →
    s.outValid p = true ∧ s.outPair p = some e ∧ s.cmdReady p = false ∧
    (p.outReady = true → step s = .next { s with out := s.out ++ [e], offer := es, inputs := rest }) ∧
    (p.outReady = false → step s = .next { s with inputs := rest })

/-- Every step answers a next state: no fault and no refusal is ever the end of a run (R11); and without an accepted
operation and without reset the block holds its state (R176, R179). That a halted block's refusals are next states is
the model's reading (notes/assumptions/12.md), and that a step is one input, or none, is its choice
(notes/assumptions/2.md). -/
def Obligations.StepAlwaysAnswersNext : Prop :=
  (∀ s : State, ∃ t, step s = .next t) ∧
  (∀ s : State, s.inputs = [] → step s = .next s) ∧
  (∀ (s : State) (p : Pins) (rest : List Input), s.inputs = .pins p :: rest → p.rst = false →
    p.cmdValid = false → s.offer = [] → step s = .next { s with inputs := rest })

/-- R44: OUT is append-only, reset included, and grows by one pair at a time, the first on offer. The results too only
grow; that they do so at a moment of reset, which keeps the record, is the model's choice (notes/assumptions/7.md). -/
def Obligations.OutIsAppendOnly : Prop :=
  ∀ s t : State, step s = .next t →
    (t.out = s.out ∨ ∃ e es, s.offer = e :: es ∧ t.out = s.out ++ [e] ∧ t.offer = es) ∧
    (∃ rs, t.results = s.results ++ rs)

/-- R24: no operation writes `MODE`; it changes at a moment of reset and then to the strap's value; otherwise the strap
is not looked at (R190, U13). R190 loads the strap's value when `rst` goes to 0; that `MODE` takes it at every moment with
`rst` = 1 is the model's choice (notes/assumptions/4.md). The other part of the configuration, `AXIS_IN_W`,
no step changes (R7, R39). -/
def Obligations.ModeChangesOnlyAtReset : Prop :=
  (∀ s t : State, step s = .next t →
    t.axisInW = s.axisInW ∧
    (t.mode = s.mode ∨ ∃ p rest, s.inputs = .pins p :: rest ∧ p.rst = true ∧ t.mode = p.modeStrap)) ∧
  (∀ (s : State) (p : Pins) (rest : List Input) (m : Mode), p.rst = false →
    step { s with inputs := .pins { p with modeStrap := m } :: rest } = step { s with inputs := .pins p :: rest })

/-- While `cmd_ready` = 0 the words on `cmd` do not matter; the operation performed is the word at acceptance (R50, U20;
the model's choice, notes/assumptions/15.md). -/
def Obligations.UnacceptedWordsDoNotMatter : Prop :=
  ∀ (s : State) (p : Pins) (rest : List Input) (w : CmdWord) (v : Bool), s.cmdReady p = false →
    step { s with inputs := .pins { p with cmd := w, cmdValid := v } :: rest }
      = step { s with inputs := .pins p :: rest }

/-- Every step keeps the invariants of R39, its bound on `AXIS_IN_W` and the bound of R46, from every state that meets them; and the invariant
gives clauses (i) and (ii) of R39 as the spec words them. -/
def Obligations.EveryStepKeepsTheInvariant : Prop :=
  (∀ s t : State, s.Inv → step s = .next t → t.Inv) ∧
  (∀ s : State, s.Inv →
    (s.rlen.toNat = 0 ∨ s.rlen.toNat = 12 ∨ s.rlen.toNat = 13) ∧
    (s.rlen = .mouse → s.rb.toList.take 4 = [1, 0, 9, 1]) ∧
    (s.rlen = .gpad → s.rb.toList.take 4 = [1, 2, 8, 0] ∧ s.rb[11] = 0 ∧ s.rb[12] = 0))

/-- The invariants hold after reset, in either mode and for every `AXIS_IN_W` of at least 10, and in `State.reset`, whose
mode and width are the model's choice (notes/assumptions/3.md, notes/assumptions/5.md). -/
def Obligations.ResetMeetsTheInvariant : Prop :=
  (∀ (m : Mode) (axisInW : Nat), 10 ≤ axisInW → (State.resetWith m axisInW).Inv) ∧ State.reset.Inv ∧
  ∀ (s : State) (m : Mode), 10 ≤ s.axisInW → (s.resetTo m).Inv

/-- The block and the reference receiver do not interfere: the receiver's inputs leave every element of the block
alone, the pins leave the receiver alone, and what the block does does not depend on the receiver. The receiver as an
agent is the model's choice (notes/assumptions/8.md), and so is that a moment of reset, which is one of the pins, does
not touch it (notes/assumptions/9.md). -/
def Obligations.BlockAndReceiverDoNotInterfere : Prop :=
  (∀ (s t : State) (rest : List Input) (bytes : List Byte),
    s.inputs = .wire bytes :: rest ∨ s.inputs = .payload bytes :: rest → step s = .next t →
    t = { s with rx := t.rx, inputs := t.inputs }) ∧
  (∀ (s t : State) (p : Pins) (rest : List Input), s.inputs = .pins p :: rest → step s = .next t →
    t.rx = s.rx ∧ ∀ r : Receiver, step { s with rx := r } = .next { t with rx := r })

/-! ### Runs -/

/-- How many bytes each operation puts on offer (R201, R46): at most 36, and the counts of each. -/
def Obligations.OperationsEmitWithinBounds : Prop :=
  ∀ (i : Instr) (s t : State), i.isCommand = true → exec i s = .next t →
    ∃ bytes, t.offer = s.offer ++ bytes ∧ bytes.length ≤ 36 ∧
      (bytes ≠ [] →
        (i = .frmOpen ∧ bytes.length = 1) ∨
        (∃ b, i = .frmData b ∧ 1 ≤ bytes.length ∧ bytes.length ≤ 2) ∨
        (i = .frmClose ∧ 5 ≤ bytes.length ∧ bytes.length ≤ 9) ∨
        (i = .send ∧ s.mode = .dgram ∧ bytes.length = s.rlen.toNat) ∨
        (i = .send ∧ s.mode = .stream ∧ s.rlen.toNat + 6 ≤ bytes.length ∧
          bytes.length ≤ 2 * s.rlen.toNat + 10))

/-- The step machine refines the atomic view (R46, R48): words issued one after the other to a ready sink leave the
state that the operations leave one after the other, and OUT has gained exactly the bytes they emit, in order. The
moments are the model's (notes/assumptions/1.md, notes/assumptions/2.md). -/
def Obligations.ReadySinkSeesOperationsInOrder : Prop :=
  ∀ (m : Mode) (ws : List CmdWord) (more : List Input) (s t : State), s.offer = [] →
    s.inputs = schedule m ws ++ more →
    runOps (ws.map (decodeCommand s.axisInW)) { s with inputs := more } = .next t →
    Host.Core.run Sys2Proof.core (37 * ws.length) s = .next t.drained

/-- R191: reset during an operation. After `k` transfers OUT has gained the first `k` bytes of what the operation emits
(all of them if there are no more), the rest are never emitted, and the block is in the reset state. The model's choices
are that an operation takes effect when it is accepted (notes/assumptions/1.md), the moments (notes/assumptions/2.md),
that `MODE` follows the strap at the moment of reset (notes/assumptions/4.md), and that a reset keeps the record of results
(notes/assumptions/7.md) and does not touch the receiver (notes/assumptions/9.md). -/
def Obligations.ResetCutsAnOperationShort : Prop :=
  ∀ (w : CmdWord) (k : Nat) (m strap : Mode) (more : List Input) (s : State), s.offer = [] →
    s.inputs = commandPins m w :: List.replicate k (readyPins m) ++ resetPins strap :: more →
    ∃ u t, exec (decodeCommand s.axisInW w) { s with inputs := more } = .next u ∧
      Host.Core.run Sys2Proof.core (k + 2) s = .next t ∧
        t = { u.resetTo strap with out := s.out ++ u.offer.take k }

/-- In STREAM mode a run that is in IDLE has put a sequence of whole frames on OUT, whatever the operations were, faults
included (R127, R130, R141, R173). -/
def Obligations.StreamRunsEmitWholeFrames : Prop :=
  ∀ (is : List Instr) (s t : State), (∀ i ∈ is, i.isCommand = true) → s.mode = .stream → s.ph = .idle →
    runOps is s = .next t → t.ph = .idle →
    ∃ ps : List (List Byte), t.emitted = s.emitted ++ (ps.map fun p => withLast (frame p)).flatten

/-- In DGRAM mode a run puts a sequence of whole reports on OUT, each a datagram with `last` on its final byte alone
(R45, R140, R141). -/
def Obligations.DatagramRunsEmitWholeReports : Prop :=
  ∀ (is : List Instr) (s t : State), (∀ i ∈ is, i.isCommand = true) → s.mode = .dgram → s.bufferHoldsReport →
    runOps is s = .next t →
    ∃ rs : List (List Byte), t.emitted = s.emitted ++ (rs.map withLast).flatten ∧
      ∀ r ∈ rs, (∃ m, r = mouseReport m) ∨ (∃ g, r = gamepadReport g)

/-- The reference receiver fed byte by byte or symbol by symbol is `deframe_stream`: some number of steps reads all the
bytes of a wire input, and the payloads accepted are those R155 gives. The receiver as an agent is the model's choice
(notes/assumptions/8.md). -/
def Obligations.ReceiverStepsAreDeframeStream : Prop :=
  ∀ (bytes : List Byte) (rest : List Input) (s : State), s.inputs = .wire bytes :: rest →
    s.rx.inside = false → s.rx.buf = [] →
    ∃ n t, Host.Core.run Sys2Proof.core n s = .next t ∧ t.inputs = rest ∧
      t.rx.frames = s.rx.frames ++ deframeStream bytes ∧ t = { s with rx := t.rx, inputs := t.inputs }

/-- The document's whole data flow, there and back (R77 `SENDM`, R154, R156, R157): encoding a mouse snapshot and
sending it puts bytes on OUT from which the reference receiver recovers the snapshot, in either mode. -/
def Obligations.MouseSnapshotReachesTheReceiver : Prop :=
  ∀ (m : MouseSnapshot) (s : State), s.ecause = .noFault → s.ph = .idle →
    ∃ t bytes, runOps [.encMouse m, .send] s = .next t ∧ t.emitted = s.emitted ++ bytes ∧
      (s.mode = .stream → ∃ p, deframeStream (bytes.map (·.byte)) = [p] ∧ parseReport p = some (.mouse m)) ∧
      (s.mode = .dgram → parseReport (bytes.map (·.byte)) = some (.mouse m))
end

