-- ==== Sys2Proof/Laws/Encoding.lean ====
section
/-! SUPPORT. The bits of a placed field, and what each decoder can answer, said once. -/

namespace Sys2Proof

/-- A bit of a field read from a command word is the word's bit. -/
theorem getLsbD_field (n lo : Nat) (w : CmdWord) (i : Nat) :
    (field n lo w).getLsbD i = (decide (i < n) && w.testBit (lo + i)) := by
  simp [field, BitVec.getLsbD, Nat.testBit_shiftRight, Nat.testBit_mod_two_pow]

/-- A bit of a field placed at `lo` is the field's bit. -/
theorem testBit_place {n : Nat} (lo : Nat) (v : BitVec n) (i : Nat) :
    (place lo v).testBit i = (decide (lo ≤ i) && v.getLsbD (i - lo)) := by
  simp [place, BitVec.getLsbD]

/-- A Boolean field is one bit. -/
theorem testBit_placeBool (lo : Nat) (b : Bool) (i : Nat) :
    (placeBool lo b).testBit i = (decide (i = lo) && b) := by
  rw [placeBool, testBit_place]
  by_cases h : i = lo
  · subst h; simp
  · by_cases h2 : lo ≤ i
    · rw [BitVec.getLsbD_of_ge _ _ (show i - lo ≥ 1 by omega)]; simp [h]
    · simp [h, h2]

/-- The four bits that `decodeCommand` matches on, from the operation code as a number. -/
theorem opcode_bits {w : CmdWord} {k : Nat} (h : w % 16 = k) :
    w.testBit 0 = k.testBit 0 ∧ w.testBit 1 = k.testBit 1
      ∧ w.testBit 2 = k.testBit 2 ∧ w.testBit 3 = k.testBit 3 := by
  subst h
  have hw : w % 16 = w % 2 ^ 4 := rfl
  simp [hw, Nat.testBit_mod_two_pow]

/-- An axis value that fits its field is the value read back from its pattern (R8). -/
theorem toInt_ofInt_of_fits {axisInW : Nat} {i : Int} (hw : 1 ≤ axisInW) (h : axisFits axisInW i = true) :
    (BitVec.ofInt axisInW i).toInt = i := by
  simp only [axisFits, Bool.and_eq_true, decide_eq_true_eq] at h
  obtain ⟨n, rfl⟩ : ∃ n, axisInW = n + 1 := ⟨axisInW - 1, by omega⟩
  rw [BitVec.toInt_ofInt]
  apply Int.bmod_eq_of_le <;> simp [Nat.pow_succ] at h ⊢ <;> omega

/-- A value read from an axis field fits it. -/
theorem axisFits_axisField {axisInW : Nat} (k : Nat) (w : CmdWord) :
    axisFits axisInW (axisField axisInW k w) = true := by
  have h1 := BitVec.le_toInt (field axisInW (22 + k * axisInW) w)
  have h2 := BitVec.toInt_lt (x := field axisInW (22 + k * axisInW) w)
  simp [axisFits, axisField, h1, h2]

/-- A command word decodes to an instruction of the command port. -/
theorem decodeCommand_isCommand (axisInW : Nat) (w : CmdWord) :
    (decodeCommand axisInW w).isCommand = true := by
  unfold decodeCommand
  split <;> rfl

/-- What `decodeSymbol` answers is one of the four symbols, and its bytes stood first. -/
theorem decodeSymbol_cases {bs left : List Byte} {i : Instr} (h : decodeSymbol bs = .ok (i, left)) :
    (i = .symEnd ∨ (∃ b, i = .symLit b) ∨ i = .symEend ∨ i = .symEesc)
      ∧ bs = symbolBytes i ++ left := by
  cases bs with
  | nil => simp [decodeSymbol] at h
  | cons b rest =>
    simp only [decodeSymbol] at h
    by_cases h0 : b = 0xC0#8
    · simp [h0] at h
      obtain ⟨rfl, rfl⟩ := h
      simp [symbolBytes, h0]
    · by_cases h1 : b = 0xDB#8
      · cases rest with
        | nil => simp [h1] at h
        | cons e rest =>
          by_cases h2 : e = 0xDC#8
          · simp [h1, h2] at h
            obtain ⟨rfl, rfl⟩ := h
            simp [symbolBytes, h1, h2]
          · by_cases h3 : e = 0xDD#8
            · simp [h1, h3] at h
              obtain ⟨rfl, rfl⟩ := h
              simp [symbolBytes, h1, h3]
            · simp [h1, h2, h3] at h
      · simp [h0, h1] at h
        obtain ⟨rfl, rfl⟩ := h
        simp [symbolBytes]

/-- What `decodeReport` answers is one of the two layouts. -/
theorem decodeReport_cases {bs : List Byte} {i : Instr} (h : decodeReport bs = .ok i) :
    (∃ m, i = .mouseReport m) ∨ (∃ r, i = .gamepadReport r) := by
  unfold decodeReport at h
  split at h
  · simp at h
  · split at h <;> simp at h
    · exact .inl ⟨_, h.symm⟩
    · exact .inr ⟨_, h.symm⟩

end Sys2Proof
end

