-- ==== Sys2Proof/Laws/Functions.lean ====
section
/-! SUPPORT. Small lemmas of the Level F functions: the checksum loop, `esc` and `escaped`, the receiver's loop. -/

namespace Sys2Proof.Machine

/-! ### The checksum -/

theorem crcAbsorb_append (c : Word32) (a b : List Byte) :
    crcAbsorb c (a ++ b) = crcAbsorb (crcAbsorb c a) b := by
  simp [crcAbsorb]

/-- One iteration of R102 is linear over xor. -/
theorem crcShift_xor (a b : Word32) : crcShift (a ^^^ b) = crcShift a ^^^ crcShift b := by
  unfold crcShift
  rw [BitVec.getLsbD_xor]
  cases a.getLsbD 0 <;> cases b.getLsbD 0 <;> simp [BitVec.ushiftRight_xor_distrib]
  · ac_rfl
  · ac_rfl
  · have h : a >>> 1 ^^^ crcPolyReflected ^^^ (b >>> 1 ^^^ crcPolyReflected)
        = a >>> 1 ^^^ b >>> 1 ^^^ (crcPolyReflected ^^^ crcPolyReflected) := by ac_rfl
    simp [h]

theorem iterate_crcShift_xor (n : Nat) (a b : Word32) :
    iterate crcShift n (a ^^^ b) = iterate crcShift n a ^^^ iterate crcShift n b := by
  induction n generalizing a b with
  | zero => rfl
  | succ n ih => simp [iterate, crcShift_xor, ih]

/-! ### Byte stuffing -/

/-- The three cases of `esc`. -/
theorem esc_cases (b : Byte) :
    (b = 0xC0#8 ∧ esc b = [0xDB#8, 0xDC#8]) ∨ (b = 0xDB#8 ∧ esc b = [0xDB#8, 0xDD#8])
      ∨ (b ≠ 0xC0#8 ∧ b ≠ 0xDB#8 ∧ esc b = [b]) := by
  unfold esc byteEnd byteEsc byteEscEnd byteEscEsc
  by_cases h : b = 0xC0#8
  · simp [h]
  · by_cases h2 : b = 0xDB#8 <;> simp [h, h2]

@[simp] theorem escaped_nil : escaped [] = [] := rfl

@[simp] theorem escaped_cons (b : Byte) (s : List Byte) : escaped (b :: s) = esc b ++ escaped s := by
  simp [escaped]

@[simp] theorem le32_length (v : Word32) : (le32 v).length = 4 := rfl

/-! ### The reference receiver -/

/-- The receiver's loop accepts the payloads of `deframeLoop`. -/
theorem foldl_byte_frames (bs : List Byte) (r : Receiver) :
    (bs.foldl Receiver.byte r).frames = r.frames ++ deframeLoop bs r.inside r.buf := by
  induction bs generalizing r with
  | nil => simp [deframeLoop]
  | cons b bs ih =>
    rw [List.foldl_cons, ih]
    simp only [deframeLoop, Receiver.byte]
    split
    · simp
    · split <;> simp_all

end Sys2Proof.Machine
end

