-- ==== Sys2Proof/Laws/State.lean ====
section
/-! SUPPORT. What each named update of the state does to each field, one lemma per field per update, true by rfl. -/

namespace Sys2Proof.Machine

variable (s : State)

/-! ### `State.emit` -/

@[simp] theorem State.emit_crc (b : Byte) (l : Bool) : (s.emit b l).crc = s.crc := rfl
@[simp] theorem State.emit_ph (b : Byte) (l : Bool) : (s.emit b l).ph = s.ph := rfl
@[simp] theorem State.emit_mode (b : Byte) (l : Bool) : (s.emit b l).mode = s.mode := rfl
@[simp] theorem State.emit_rb (b : Byte) (l : Bool) : (s.emit b l).rb = s.rb := rfl
@[simp] theorem State.emit_rlen (b : Byte) (l : Bool) : (s.emit b l).rlen = s.rlen := rfl
@[simp] theorem State.emit_ecause (b : Byte) (l : Bool) : (s.emit b l).ecause = s.ecause := rfl
@[simp] theorem State.emit_out (b : Byte) (l : Bool) : (s.emit b l).out = s.out := rfl
@[simp] theorem State.emit_offer (b : Byte) (l : Bool) : (s.emit b l).offer = s.offer ++ [{ byte := b, last := l }] := rfl
@[simp] theorem State.emit_results (b : Byte) (l : Bool) : (s.emit b l).results = s.results := rfl
@[simp] theorem State.emit_rx (b : Byte) (l : Bool) : (s.emit b l).rx = s.rx := rfl
@[simp] theorem State.emit_inputs (b : Byte) (l : Bool) : (s.emit b l).inputs = s.inputs := rfl
@[simp] theorem State.emit_axisInW (b : Byte) (l : Bool) : (s.emit b l).axisInW = s.axisInW := rfl

/-! ### `State.result` -/

@[simp] theorem State.result_crc (v : ResWord) : (s.result v).crc = s.crc := rfl
@[simp] theorem State.result_ph (v : ResWord) : (s.result v).ph = s.ph := rfl
@[simp] theorem State.result_mode (v : ResWord) : (s.result v).mode = s.mode := rfl
@[simp] theorem State.result_rb (v : ResWord) : (s.result v).rb = s.rb := rfl
@[simp] theorem State.result_rlen (v : ResWord) : (s.result v).rlen = s.rlen := rfl
@[simp] theorem State.result_ecause (v : ResWord) : (s.result v).ecause = s.ecause := rfl
@[simp] theorem State.result_out (v : ResWord) : (s.result v).out = s.out := rfl
@[simp] theorem State.result_offer (v : ResWord) : (s.result v).offer = s.offer := rfl
@[simp] theorem State.result_results (v : ResWord) : (s.result v).results = s.results ++ [v] := rfl
@[simp] theorem State.result_rx (v : ResWord) : (s.result v).rx = s.rx := rfl
@[simp] theorem State.result_inputs (v : ResWord) : (s.result v).inputs = s.inputs := rfl
@[simp] theorem State.result_axisInW (v : ResWord) : (s.result v).axisInW = s.axisInW := rfl

/-! ### `State.opFault` -/

@[simp] theorem State.opFault_crc (c : Cause) : (s.opFault c).crc = s.crc := rfl
@[simp] theorem State.opFault_ph (c : Cause) : (s.opFault c).ph = s.ph := rfl
@[simp] theorem State.opFault_mode (c : Cause) : (s.opFault c).mode = s.mode := rfl
@[simp] theorem State.opFault_rb (c : Cause) : (s.opFault c).rb = s.rb := rfl
@[simp] theorem State.opFault_rlen (c : Cause) : (s.opFault c).rlen = s.rlen := rfl
@[simp] theorem State.opFault_ecause (c : Cause) : (s.opFault c).ecause = c := rfl
@[simp] theorem State.opFault_out (c : Cause) : (s.opFault c).out = s.out := rfl
@[simp] theorem State.opFault_offer (c : Cause) : (s.opFault c).offer = s.offer := rfl
@[simp] theorem State.opFault_results (c : Cause) : (s.opFault c).results = s.results := rfl
@[simp] theorem State.opFault_rx (c : Cause) : (s.opFault c).rx = s.rx := rfl
@[simp] theorem State.opFault_inputs (c : Cause) : (s.opFault c).inputs = s.inputs := rfl
@[simp] theorem State.opFault_axisInW (c : Cause) : (s.opFault c).axisInW = s.axisInW := rfl

/-! ### `State.resetTo` -/

@[simp] theorem State.resetTo_crc (m : Mode) : (s.resetTo m).crc = 0xFFFFFFFF#32 := rfl
@[simp] theorem State.resetTo_ph (m : Mode) : (s.resetTo m).ph = .idle := rfl
@[simp] theorem State.resetTo_mode (m : Mode) : (s.resetTo m).mode = m := rfl
@[simp] theorem State.resetTo_rb (m : Mode) : (s.resetTo m).rb = #v[0, 0, 0, 0, 0, 0, 0, 0, 0, 0, 0, 0, 0] := rfl
@[simp] theorem State.resetTo_rlen (m : Mode) : (s.resetTo m).rlen = .empty := rfl
@[simp] theorem State.resetTo_ecause (m : Mode) : (s.resetTo m).ecause = .noFault := rfl
@[simp] theorem State.resetTo_out (m : Mode) : (s.resetTo m).out = s.out := rfl
@[simp] theorem State.resetTo_offer (m : Mode) : (s.resetTo m).offer = [] := rfl
@[simp] theorem State.resetTo_results (m : Mode) : (s.resetTo m).results = s.results := rfl
@[simp] theorem State.resetTo_rx (m : Mode) : (s.resetTo m).rx = s.rx := rfl
@[simp] theorem State.resetTo_inputs (m : Mode) : (s.resetTo m).inputs = s.inputs := rfl
@[simp] theorem State.resetTo_axisInW (m : Mode) : (s.resetTo m).axisInW = s.axisInW := rfl

/-! ### `State.receive` -/

@[simp] theorem State.receive_crc (bs : List Byte) : (s.receive bs).crc = s.crc := rfl
@[simp] theorem State.receive_ph (bs : List Byte) : (s.receive bs).ph = s.ph := rfl
@[simp] theorem State.receive_mode (bs : List Byte) : (s.receive bs).mode = s.mode := rfl
@[simp] theorem State.receive_rb (bs : List Byte) : (s.receive bs).rb = s.rb := rfl
@[simp] theorem State.receive_rlen (bs : List Byte) : (s.receive bs).rlen = s.rlen := rfl
@[simp] theorem State.receive_ecause (bs : List Byte) : (s.receive bs).ecause = s.ecause := rfl
@[simp] theorem State.receive_out (bs : List Byte) : (s.receive bs).out = s.out := rfl
@[simp] theorem State.receive_offer (bs : List Byte) : (s.receive bs).offer = s.offer := rfl
@[simp] theorem State.receive_results (bs : List Byte) : (s.receive bs).results = s.results := rfl
@[simp] theorem State.receive_rx (bs : List Byte) : (s.receive bs).rx = bs.foldl Receiver.byte s.rx := rfl
@[simp] theorem State.receive_inputs (bs : List Byte) : (s.receive bs).inputs = s.inputs := rfl
@[simp] theorem State.receive_axisInW (bs : List Byte) : (s.receive bs).axisInW = s.axisInW := rfl

/-! ### `State.parsed` -/

@[simp] theorem State.parsed_crc (r : Report) : (s.parsed r).crc = s.crc := rfl
@[simp] theorem State.parsed_ph (r : Report) : (s.parsed r).ph = s.ph := rfl
@[simp] theorem State.parsed_mode (r : Report) : (s.parsed r).mode = s.mode := rfl
@[simp] theorem State.parsed_rb (r : Report) : (s.parsed r).rb = s.rb := rfl
@[simp] theorem State.parsed_rlen (r : Report) : (s.parsed r).rlen = s.rlen := rfl
@[simp] theorem State.parsed_ecause (r : Report) : (s.parsed r).ecause = s.ecause := rfl
@[simp] theorem State.parsed_out (r : Report) : (s.parsed r).out = s.out := rfl
@[simp] theorem State.parsed_offer (r : Report) : (s.parsed r).offer = s.offer := rfl
@[simp] theorem State.parsed_results (r : Report) : (s.parsed r).results = s.results := rfl
@[simp] theorem State.parsed_rx (r : Report) : (s.parsed r).rx = { s.rx with reports := s.rx.reports ++ [r] } := rfl
@[simp] theorem State.parsed_inputs (r : Report) : (s.parsed r).inputs = s.inputs := rfl
@[simp] theorem State.parsed_axisInW (r : Report) : (s.parsed r).axisInW = s.axisInW := rfl

/-! ### `State.unread` -/

@[simp] theorem State.unread_crc (rest : List Byte) : (s.unread rest).crc = s.crc := by
  unfold State.unread; split <;> rfl
@[simp] theorem State.unread_ph (rest : List Byte) : (s.unread rest).ph = s.ph := by
  unfold State.unread; split <;> rfl
@[simp] theorem State.unread_mode (rest : List Byte) : (s.unread rest).mode = s.mode := by
  unfold State.unread; split <;> rfl
@[simp] theorem State.unread_rb (rest : List Byte) : (s.unread rest).rb = s.rb := by
  unfold State.unread; split <;> rfl
@[simp] theorem State.unread_rlen (rest : List Byte) : (s.unread rest).rlen = s.rlen := by
  unfold State.unread; split <;> rfl
@[simp] theorem State.unread_ecause (rest : List Byte) : (s.unread rest).ecause = s.ecause := by
  unfold State.unread; split <;> rfl
@[simp] theorem State.unread_out (rest : List Byte) : (s.unread rest).out = s.out := by
  unfold State.unread; split <;> rfl
@[simp] theorem State.unread_offer (rest : List Byte) : (s.unread rest).offer = s.offer := by
  unfold State.unread; split <;> rfl
@[simp] theorem State.unread_results (rest : List Byte) : (s.unread rest).results = s.results := by
  unfold State.unread; split <;> rfl
@[simp] theorem State.unread_rx (rest : List Byte) : (s.unread rest).rx = s.rx := by
  unfold State.unread; split <;> rfl
@[simp] theorem State.unread_axisInW (rest : List Byte) : (s.unread rest).axisInW = s.axisInW := by
  unfold State.unread; split <;> rfl
@[simp] theorem State.unread_nil : s.unread [] = s := rfl
@[simp] theorem State.unread_cons (b : Byte) (rest : List Byte) :
    s.unread (b :: rest) = { s with inputs := .wire (b :: rest) :: s.inputs } := by simp [State.unread]

/-! ### `State.drained` -/

@[simp] theorem State.drained_crc : s.drained.crc = s.crc := rfl
@[simp] theorem State.drained_ph : s.drained.ph = s.ph := rfl
@[simp] theorem State.drained_mode : s.drained.mode = s.mode := rfl
@[simp] theorem State.drained_rb : s.drained.rb = s.rb := rfl
@[simp] theorem State.drained_rlen : s.drained.rlen = s.rlen := rfl
@[simp] theorem State.drained_ecause : s.drained.ecause = s.ecause := rfl
@[simp] theorem State.drained_out : s.drained.out = s.out ++ s.offer := rfl
@[simp] theorem State.drained_offer : s.drained.offer = [] := rfl
@[simp] theorem State.drained_results : s.drained.results = s.results := rfl
@[simp] theorem State.drained_rx : s.drained.rx = s.rx := rfl
@[simp] theorem State.drained_inputs : s.drained.inputs = s.inputs := rfl
@[simp] theorem State.drained_axisInW : s.drained.axisInW = s.axisInW := rfl

/-! ### Derived views -/

@[simp] theorem State.emitted_emit (b : Byte) (l : Bool) :
    (s.emit b l).emitted = s.emitted ++ [{ byte := b, last := l }] := by simp [State.emitted]
@[simp] theorem State.emitted_drained : s.drained.emitted = s.emitted := by simp [State.emitted]
@[simp] theorem State.err_eq_false : s.err = false ↔ s.ecause = .noFault := by simp [State.err]

end Sys2Proof.Machine
end

