-- ==== Sys2Proof/Laws/Ops.lean ====
section
/-! SUPPORT. Each shared operation over the output side in closed form, and what each meaning can answer, said once. -/

namespace Sys2Proof.Machine

/-! ### Emitting -/

/-- A byte of OUT that does not end a transport unit. -/
abbrev dataByte (b : Byte) : OutByte := { byte := b, last := false }

theorem State.emitAll_eq (s : State) (bs : List Byte) :
    s.emitAll bs = { s with offer := s.offer ++ bs.map dataByte } := by
  unfold State.emitAll
  induction bs generalizing s with
  | nil => simp
  | cons b rest ih => rw [List.foldl_cons, ih]; simp

theorem foldl_emitAll_eq (bs : List Byte) (s : State) :
    bs.foldl (fun s t => s.emitAll (esc t)) s
      = { s with offer := s.offer ++ (escaped bs).map dataByte } := by
  induction bs generalizing s with
  | nil => simp [escaped]
  | cons b rest ih => rw [List.foldl_cons, ih]; simp [State.emitAll_eq, escaped]

theorem State.emitTrailer_eq (s : State) (c : Word32) :
    s.emitTrailer c
      = { s with offer := s.offer ++ (escaped (le32 (crcFinal c))).map dataByte } :=
  foldl_emitAll_eq _ s

theorem withLast_concat (bs : List Byte) (b : Byte) :
    withLast (bs ++ [b]) = bs.map dataByte ++ [{ byte := b, last := true }] := by
  induction bs with
  | nil => rfl
  | cons a rest ih =>
    cases rest with
    | nil => rfl
    | cons c rest => simpa [withLast] using ih

@[simp] theorem withLast_length (bs : List Byte) : (withLast bs).length = bs.length := by
  induction bs using withLast.induct <;> simp_all [withLast]

@[simp] theorem withLast_map_byte (bs : List Byte) : (withLast bs).map (·.byte) = bs := by
  induction bs using withLast.induct <;> simp_all [withLast]

theorem State.emitDatagram_eq (s : State) (bs : List Byte) :
    s.emitDatagram bs = { s with offer := s.offer ++ withLast bs } := by
  induction bs using withLast.induct generalizing s <;>
    simp_all [State.emitDatagram, withLast, State.emit]

theorem sendLoop_eq (r : List Byte) (c : Word32) (s : State) :
    sendLoop r c s
      = (crcAbsorb c r, { s with offer := s.offer ++ (escaped r).map dataByte }) := by
  induction r generalizing c s with
  | nil => simp [sendLoop, crcAbsorb, escaped]
  | cons b rest ih => simp [sendLoop, ih, State.emitAll_eq, crcAbsorb, escaped]

/-- STREAM `SEND` puts the frame of the report on offer and leaves its accumulator in `CRC`. -/
theorem State.emitFramed_eq (s : State) (r : List Byte) :
    s.emitFramed r
      = { s with offer := s.offer ++ withLast (frame r), crc := crcAbsorb crcInitValue r } := by
  have h : frame r = ([byteEnd] ++ escaped r ++ escaped (le32 (crc32 r))) ++ [byteEnd] := rfl
  rw [h, withLast_concat]
  simp [State.emitFramed, sendLoop_eq, State.emitTrailer_eq, State.emit, crc32]

/-! ### What a meaning can answer -/

/-- An operation that is not refused while halted answers what its body answers. -/
theorem State.unlessHalted_cases {s : State} {op : State → Result} {r : Result}
    (h : s.unlessHalted op = r) :
    (s.ecause = .noFault ∧ op s = r) ∨ (s.ecause ≠ .noFault ∧ r = .next s) := by
  unfold State.unlessHalted at h
  split at h
  · exact .inl ⟨‹_›, h⟩
  · exact .inr ⟨‹_›, h.symm⟩

theorem execCrcInit_cases {s t : State} (h : execCrcInit s = .next t) :
    (s.ecause ≠ .noFault ∧ t = s) ∨ (s.ecause = .noFault ∧ s.ph = .opened ∧ t = s.opFault .seq)
      ∨ (s.ecause = .noFault ∧ s.ph = .idle ∧ t = { s with crc := crcInitValue }) := by
  rcases State.unlessHalted_cases h with ⟨h0, h1⟩ | ⟨h0, h1⟩
  · cases hp : s.ph <;> simp [hp, raiseOpFault] at h1 <;> subst h1 <;> simp [h0]
  · simp_all

theorem execCrcByte_cases {b : Byte} {s t : State} (h : execCrcByte b s = .next t) :
    (s.ecause ≠ .noFault ∧ t = s) ∨ (s.ecause = .noFault ∧ s.ph = .opened ∧ t = s.opFault .seq)
      ∨ (s.ecause = .noFault ∧ s.ph = .idle ∧ t = { s with crc := crcUpdate s.crc b }) := by
  rcases State.unlessHalted_cases h with ⟨h0, h1⟩ | ⟨h0, h1⟩
  · cases hp : s.ph <;> simp [hp, raiseOpFault] at h1 <;> subst h1 <;> simp [h0]
  · simp_all

theorem execEncMouse_cases {m : MouseSnapshot} {s t : State} (h : execEncMouse m s = .next t) :
    (s.ecause ≠ .noFault ∧ t = s)
      ∨ (s.ecause = .noFault ∧ t = { s with rb := rbOf (mouseReport m), rlen := .mouse }) := by
  rcases State.unlessHalted_cases h with ⟨h0, h1⟩ | ⟨h0, h1⟩ <;> simp_all

theorem execEncGpad_cases {g : GamepadSnapshot} {s t : State} (h : execEncGpad g s = .next t) :
    (s.ecause ≠ .noFault ∧ t = s)
      ∨ (s.ecause = .noFault ∧ t = { s with rb := rbOf (gamepadReport g), rlen := .gpad }) := by
  rcases State.unlessHalted_cases h with ⟨h0, h1⟩ | ⟨h0, h1⟩ <;> simp_all

theorem execFrmOpen_cases {s t : State} (h : execFrmOpen s = .next t) :
    (s.ecause ≠ .noFault ∧ t = s) ∨ (s.ecause = .noFault ∧ s.mode = .dgram ∧ t = s.opFault .mode)
      ∨ (s.ecause = .noFault ∧ s.mode = .stream ∧ s.ph = .opened ∧ t = s.opFault .seq)
      ∨ (s.ecause = .noFault ∧ s.mode = .stream ∧ s.ph = .idle ∧
          t = { s with offer := s.offer ++ [dataByte byteEnd], crc := crcInitValue, ph := .opened }) := by
  rcases State.unlessHalted_cases h with ⟨h0, h1⟩ | ⟨h0, h1⟩
  · cases hm : s.mode <;> cases hp : s.ph <;> simp [hm, hp, raiseOpFault] at h1 <;>
      simp [h0, ← h1]
  · simp_all

theorem execFrmData_cases {b : Byte} {s t : State} (h : execFrmData b s = .next t) :
    (s.ecause ≠ .noFault ∧ t = s) ∨ (s.ecause = .noFault ∧ s.mode = .dgram ∧ t = s.opFault .mode)
      ∨ (s.ecause = .noFault ∧ s.mode = .stream ∧ s.ph = .idle ∧ t = s.opFault .seq)
      ∨ (s.ecause = .noFault ∧ s.mode = .stream ∧ s.ph = .opened ∧
          t = { s with offer := s.offer ++ (esc b).map dataByte, crc := crcUpdate s.crc b }) := by
  rcases State.unlessHalted_cases h with ⟨h0, h1⟩ | ⟨h0, h1⟩
  · cases hm : s.mode <;> cases hp : s.ph <;> simp [hm, hp, raiseOpFault] at h1 <;>
      simp [h0, hm, hp, ← h1, State.emitAll_eq]
  · simp_all

theorem execFrmClose_cases {s t : State} (h : execFrmClose s = .next t) :
    (s.ecause ≠ .noFault ∧ t = s) ∨ (s.ecause = .noFault ∧ s.mode = .dgram ∧ t = s.opFault .mode)
      ∨ (s.ecause = .noFault ∧ s.mode = .stream ∧ s.ph = .idle ∧ t = s.opFault .seq)
      ∨ (s.ecause = .noFault ∧ s.mode = .stream ∧ s.ph = .opened ∧
          t = { s with
                offer := s.offer ++ withLast (escaped (le32 (crcFinal s.crc)) ++ [byteEnd])
                ph := .idle }) := by
  rcases State.unlessHalted_cases h with ⟨h0, h1⟩ | ⟨h0, h1⟩
  · cases hm : s.mode <;> cases hp : s.ph <;> simp [hm, hp, raiseOpFault] at h1 <;>
      simp [h0, hm, hp, ← h1, State.emitTrailer_eq, withLast_concat]
  · simp_all

theorem execSend_cases {s t : State} (h : execSend s = .next t) :
    (s.ecause ≠ .noFault ∧ t = s) ∨ (s.ecause = .noFault ∧ s.ph = .opened ∧ t = s.opFault .seq)
      ∨ (s.ecause = .noFault ∧ s.ph = .idle ∧ s.rlen = .empty ∧ t = s.opFault .noReport)
      ∨ (s.ecause = .noFault ∧ s.ph = .idle ∧ s.rlen ≠ .empty ∧ s.mode = .dgram ∧
          t = { s with offer := s.offer ++ withLast s.report })
      ∨ (s.ecause = .noFault ∧ s.ph = .idle ∧ s.rlen ≠ .empty ∧ s.mode = .stream ∧
          t = { s with
                offer := s.offer ++ withLast (frame s.report)
                crc := crcAbsorb crcInitValue s.report }) := by
  rcases State.unlessHalted_cases h with ⟨h0, h1⟩ | ⟨h0, h1⟩
  · by_cases hr : s.rlen = .empty <;> cases hm : s.mode <;> cases hp : s.ph <;>
      simp [hm, hp, hr, raiseOpFault] at h1 <;>
      simp [h0, hm, hp, ← h1, hr, State.emitDatagram_eq, State.emitFramed_eq]
  · simp_all

theorem execRdsr_cases {n : BitVec 4} {s t : State} (h : execRdsr n s = .next t) :
    (∃ v, s.statusReg n = some v ∧ t = s.result v)
      ∨ (s.statusReg n = none ∧ s.ecause ≠ .noFault ∧ t = s)
      ∨ (s.statusReg n = none ∧ s.ecause = .noFault ∧ t = s.opFault .illegal) := by
  unfold execRdsr at h
  split at h
  · exact .inl ⟨_, ‹_›, by simpa using h.symm⟩
  · rcases State.unlessHalted_cases h with ⟨h0, h1⟩ | ⟨h0, h1⟩ <;> simp_all [raiseOpFault]

theorem illegalCode_cases {s t : State} (h : illegalCode s = .next t) :
    (s.ecause ≠ .noFault ∧ t = s) ∨ (s.ecause = .noFault ∧ t = s.opFault .illegal) := by
  rcases State.unlessHalted_cases h with ⟨h0, h1⟩ | ⟨h0, h1⟩ <;> simp_all [raiseOpFault]

/-- What an operation of the command port can do to the state, said once for all sixteen codes: nothing, an `OpFault`
from a state that is not halted, a status result, or a completed operation that leaves `MODE`, `ECAUSE`, OUT, the
receiver and the inputs alone and puts some bytes on offer. -/
theorem exec_command_cases {i : Instr} {s t : State} (hc : i.isCommand = true) (h : exec i s = .next t) :
    (s.ecause ≠ .noFault ∧ t = s) ∨ (s.ecause = .noFault ∧ ∃ c, c ≠ .noFault ∧ t = s.opFault c)
      ∨ (∃ v, t = s.result v)
      ∨ (s.ecause = .noFault ∧ ∃ crc ph rb rlen bytes,
          t = { s with crc := crc, ph := ph, rb := rb, rlen := rlen, offer := s.offer ++ bytes }) := by
  cases i with
  | crcInit =>
    rcases execCrcInit_cases h with ⟨h0, rfl⟩ | ⟨h0, -, rfl⟩ | ⟨h0, -, rfl⟩
    · exact .inl ⟨h0, rfl⟩
    · exact .inr (.inl ⟨h0, _, by decide, rfl⟩)
    · exact .inr (.inr (.inr ⟨h0, _, s.ph, s.rb, s.rlen, [], by rw [List.append_nil]⟩))
  | crcByte b =>
    rcases execCrcByte_cases h with ⟨h0, rfl⟩ | ⟨h0, -, rfl⟩ | ⟨h0, -, rfl⟩
    · exact .inl ⟨h0, rfl⟩
    · exact .inr (.inl ⟨h0, _, by decide, rfl⟩)
    · exact .inr (.inr (.inr ⟨h0, _, s.ph, s.rb, s.rlen, [], by rw [List.append_nil]⟩))
  | rdsr n =>
    rcases execRdsr_cases h with ⟨v, -, rfl⟩ | ⟨-, h0, rfl⟩ | ⟨-, h0, rfl⟩
    · exact .inr (.inr (.inl ⟨v, rfl⟩))
    · exact .inl ⟨h0, rfl⟩
    · exact .inr (.inl ⟨h0, _, by decide, rfl⟩)
  | frmOpen =>
    rcases execFrmOpen_cases h with ⟨h0, rfl⟩ | ⟨h0, -, rfl⟩ | ⟨h0, -, -, rfl⟩ | ⟨h0, -, -, rfl⟩
    · exact .inl ⟨h0, rfl⟩
    · exact .inr (.inl ⟨h0, _, by decide, rfl⟩)
    · exact .inr (.inl ⟨h0, _, by decide, rfl⟩)
    · exact .inr (.inr (.inr ⟨h0, _, _, s.rb, s.rlen, _, rfl⟩))
  | frmData b =>
    rcases execFrmData_cases h with ⟨h0, rfl⟩ | ⟨h0, -, rfl⟩ | ⟨h0, -, -, rfl⟩ | ⟨h0, -, -, rfl⟩
    · exact .inl ⟨h0, rfl⟩
    · exact .inr (.inl ⟨h0, _, by decide, rfl⟩)
    · exact .inr (.inl ⟨h0, _, by decide, rfl⟩)
    · exact .inr (.inr (.inr ⟨h0, _, s.ph, s.rb, s.rlen, _, rfl⟩))
  | frmClose =>
    rcases execFrmClose_cases h with ⟨h0, rfl⟩ | ⟨h0, -, rfl⟩ | ⟨h0, -, -, rfl⟩ | ⟨h0, -, -, rfl⟩
    · exact .inl ⟨h0, rfl⟩
    · exact .inr (.inl ⟨h0, _, by decide, rfl⟩)
    · exact .inr (.inl ⟨h0, _, by decide, rfl⟩)
    · exact .inr (.inr (.inr ⟨h0, s.crc, _, s.rb, s.rlen, _, rfl⟩))
  | encMouse m =>
    rcases execEncMouse_cases h with ⟨h0, rfl⟩ | ⟨h0, rfl⟩
    · exact .inl ⟨h0, rfl⟩
    · exact .inr (.inr (.inr ⟨h0, s.crc, s.ph, _, _, [], by rw [List.append_nil]⟩))
  | encGpad g =>
    rcases execEncGpad_cases h with ⟨h0, rfl⟩ | ⟨h0, rfl⟩
    · exact .inl ⟨h0, rfl⟩
    · exact .inr (.inr (.inr ⟨h0, s.crc, s.ph, _, _, [], by rw [List.append_nil]⟩))
  | send =>
    rcases execSend_cases h with ⟨h0, rfl⟩ | ⟨h0, -, rfl⟩ | ⟨h0, -, -, rfl⟩ | ⟨h0, -, -, -, rfl⟩
      | ⟨h0, -, -, -, rfl⟩
    · exact .inl ⟨h0, rfl⟩
    · exact .inr (.inl ⟨h0, _, by decide, rfl⟩)
    · exact .inr (.inl ⟨h0, _, by decide, rfl⟩)
    · exact .inr (.inr (.inr ⟨h0, s.crc, s.ph, s.rb, s.rlen, _, rfl⟩))
    · exact .inr (.inr (.inr ⟨h0, _, s.ph, s.rb, s.rlen, _, rfl⟩))
  | reserved0 | reserved7 | reservedB | reservedC | reservedD | reservedE | reservedF =>
    rcases illegalCode_cases h with ⟨h0, rfl⟩ | ⟨h0, rfl⟩
    · exact .inl ⟨h0, rfl⟩
    · exact .inr (.inl ⟨h0, _, by decide, rfl⟩)
  | mouseReport _ | gamepadReport _ | symEnd | symLit _ | symEend | symEesc =>
    simp [Instr.isCommand] at hc

end Sys2Proof.Machine
end

