-- ==== Sys2Proof/Laws/PerInstr.lean ====
section
/-! SUPPORT. A statement about every instruction as syntax, one lemma per constructor. -/

namespace Sys2Proof.Laws.EncodingKind

/-- Which encoding of 30_encoding.md an instruction's unit is of, whatever `AXIS_IN_W` is, and that it decodes: a command word whose bits 3:0
say it is one of the command port's rows (R60), a payload of its fixed length (R93), or the one or two bytes of a
symbol, of which a two-byte one starts with ESC (R73). -/
def Statement (i : Instr) : Prop :=
  ∀ axisInW : Nat, i.wf axisInW = true →
    match encode axisInW i with
    | .command w =>
      i.isCommand = true ∧ (decodeCommand axisInW w).isCommand = true ∧ 4 ≤ significantBits axisInW i
    | .report bytes => i.isCommand = false ∧ (bytes.length = 13 ∨ bytes.length = 12) ∧ bytes.head? = some 0x01#8
    | .symbol bytes => i.isCommand = false ∧ (bytes.length = 1 ∨ (bytes.length = 2 ∧ bytes.head? = some 0xDB#8))

/-- The decoder answers an instruction of the command port for every word. -/
theorem decodes (axisInW : Nat) (w : CmdWord) : (decodeCommand axisInW w).isCommand = true := by
  unfold decodeCommand
  split <;> rfl

theorem crcInit : Statement .crcInit := fun _ _ => ⟨rfl, decodes _ _, by simp [significantBits]⟩
theorem crcByte (b : Byte) : Statement (.crcByte b) := fun _ _ => ⟨rfl, decodes _ _, by simp [significantBits]⟩
theorem rdsr (n : BitVec 4) : Statement (.rdsr n) := fun _ _ => ⟨rfl, decodes _ _, by simp [significantBits]⟩
theorem frmOpen : Statement .frmOpen := fun _ _ => ⟨rfl, decodes _ _, by simp [significantBits]⟩
theorem frmData (b : Byte) : Statement (.frmData b) := fun _ _ => ⟨rfl, decodes _ _, by simp [significantBits]⟩
theorem frmClose : Statement .frmClose := fun _ _ => ⟨rfl, decodes _ _, by simp [significantBits]⟩
theorem encMouse (m : MouseSnapshot) : Statement (.encMouse m) :=
  fun _ _ => ⟨rfl, decodes _ _, by simp [significantBits]⟩
theorem encGpad (g : GamepadSnapshot) : Statement (.encGpad g) :=
  fun _ _ => ⟨rfl, decodes _ _, by simp only [significantBits]; omega⟩
theorem send : Statement .send := fun _ _ => ⟨rfl, decodes _ _, by simp [significantBits]⟩
theorem reserved0 : Statement .reserved0 := fun _ _ => ⟨rfl, decodes _ _, by simp [significantBits]⟩
theorem reserved7 : Statement .reserved7 := fun _ _ => ⟨rfl, decodes _ _, by simp [significantBits]⟩
theorem reservedB : Statement .reservedB := fun _ _ => ⟨rfl, decodes _ _, by simp [significantBits]⟩
theorem reservedC : Statement .reservedC := fun _ _ => ⟨rfl, decodes _ _, by simp [significantBits]⟩
theorem reservedD : Statement .reservedD := fun _ _ => ⟨rfl, decodes _ _, by simp [significantBits]⟩
theorem reservedE : Statement .reservedE := fun _ _ => ⟨rfl, decodes _ _, by simp [significantBits]⟩
theorem reservedF : Statement .reservedF := fun _ _ => ⟨rfl, decodes _ _, by simp [significantBits]⟩
theorem mouseReport (m : MouseSnapshot) : Statement (.mouseReport m) :=
  fun _ _ => ⟨rfl, .inl (by simp [mouseLayout, le16]), rfl⟩
theorem gamepadReport (r : GamepadReport) : Statement (.gamepadReport r) :=
  fun _ _ => ⟨rfl, .inr (by simp [gamepadLayout]), rfl⟩
theorem symEnd : Statement .symEnd := fun _ _ => ⟨rfl, .inl rfl⟩
theorem symLit (b : Byte) : Statement (.symLit b) := fun _ _ => ⟨rfl, .inl rfl⟩
theorem symEend : Statement .symEend := fun _ _ => ⟨rfl, .inr ⟨rfl, rfl⟩⟩
theorem symEesc : Statement .symEesc := fun _ _ => ⟨rfl, .inr ⟨rfl, rfl⟩⟩

end Sys2Proof.Laws.EncodingKind
end

