-- ==== Sys2Proof/Laws/Step.lean ====
section
/-! SUPPORT. What one step can do, said once, and how runs compose. -/

namespace Sys2Proof.Machine

/-! ### Status registers and reports -/

theorem statusReg_some {n : BitVec 4} (s : State) (h : n.toNat ≤ 5) : ∃ v, s.statusReg n = some v := by
  unfold State.statusReg
  have hn : n.toNat = 0 ∨ n.toNat = 1 ∨ n.toNat = 2 ∨ n.toNat = 3 ∨ n.toNat = 4 ∨ n.toNat = 5 := by omega
  rcases hn with h | h | h | h | h | h <;> rw [h] <;> exact ⟨_, rfl⟩

theorem statusReg_none {n : BitVec 4} (s : State) (h : 6 ≤ n.toNat) : s.statusReg n = none := by
  unfold State.statusReg
  split <;> first | rfl | (rename_i e; rw [e] at h; omega)

theorem report_length (s : State) : s.report.length = s.rlen.toNat := by
  unfold State.report
  rw [List.length_take]
  cases s.rlen <;> simp [ReportLen.toNat]

/-! ### The ports do not matter to an operation -/

/-- `s` with its ports at other values. -/
abbrev State.withPorts (s : State) (out offer : List OutByte) (rx : Receiver) (inputs : List Input) : State :=
  { s with out := out, offer := offer, rx := rx, inputs := inputs }

/-- An operation appends some bytes to those on offer and leaves the other ports alone, and it does the same whatever
the ports hold. -/
theorem exec_command_ports {i : Instr} {s t : State} (hc : i.isCommand = true) (h : exec i s = .next t) :
    ∃ bytes, t = t.withPorts s.out (s.offer ++ bytes) s.rx s.inputs ∧
      ∀ o f r ins, exec i (s.withPorts o f r ins) = .next (t.withPorts o (f ++ bytes) r ins) := by
  obtain ⟨bytes, hb, ht⟩ : ∃ bytes, t.offer = s.offer ++ bytes ∧
      t = t.withPorts s.out (s.offer ++ bytes) s.rx s.inputs := by
    rcases exec_command_cases hc h with ⟨-, rfl⟩ | ⟨-, c, -, rfl⟩ | ⟨v, rfl⟩ | ⟨-, crc, ph, rb, rl, bytes, rfl⟩
    · exact ⟨[], by simp, by simp [State.withPorts]⟩
    · exact ⟨[], by simp, by simp [State.withPorts, State.opFault]⟩
    · exact ⟨[], by simp, by simp [State.withPorts, State.result]⟩
    · exact ⟨bytes, rfl, rfl⟩
  refine ⟨bytes, ht, fun o f r ins => ?_⟩
  obtain ⟨crc, ph, mode, axisInW, rb, rlen, ecause, out, offer, results, rx, inputs⟩ := s
  cases i
  case mouseReport | gamepadReport | symEnd | symLit | symEend | symEesc => simp [Instr.isCommand] at hc
  case rdsr n =>
    simp only [exec, execRdsr] at h ⊢
    cases hv : State.statusReg ⟨crc, ph, mode, axisInW, rb, rlen, ecause, out, offer, results, rx, inputs⟩ n with
    | some v =>
      have hv' : State.statusReg ⟨crc, ph, mode, axisInW, rb, rlen, ecause, o, f, results, r, ins⟩ n = some v := hv
      simp [hv] at h
      subst h
      simp at hb
      simp [State.withPorts, hv', State.result, hb]
    | none =>
      have hv' : State.statusReg ⟨crc, ph, mode, axisInW, rb, rlen, ecause, o, f, results, r, ins⟩ n = none := hv
      simp [hv] at h
      simp [State.withPorts, hv']
      cases ecause <;> simp [State.unlessHalted, raiseOpFault, State.opFault] at h ⊢ <;> subst h <;>
        simp at hb <;> simp [hb]
  all_goals
    cases ecause <;> cases mode <;> cases ph <;> cases rlen <;>
      simp [exec, execCrcInit, execCrcByte, execFrmOpen, execFrmData, execFrmClose, execEncMouse, execEncGpad,
        execSend, execReserved0, execReserved7, execReservedB, execReservedC, execReservedD, execReservedE,
        execReservedF, illegalCode, State.unlessHalted, raiseOpFault, State.opFault, State.withPorts,
        State.emitAll_eq, State.emitTrailer_eq, State.emitDatagram_eq, State.emitFramed_eq, State.emit,
        State.report] at h ⊢ <;>
      subst h <;> simp at hb <;> simp [hb]

/-! ### One step -/

/-- A symbol's meaning feeds its bytes to the receiver. -/
theorem exec_symbol {bs left : List Byte} {i : Instr} (h : decodeSymbol bs = .ok (i, left)) (s : State) :
    exec i s = .next (s.receive (symbolBytes i)) := by
  obtain ⟨rfl | ⟨b, rfl⟩ | rfl | rfl, -⟩ := decodeSymbol_cases h <;> rfl

/-- What a moment of the pins can do: reset; a moment with a byte on offer, transferred or not; an accepted operation;
nothing. -/
theorem pinsMoment_cases {p : Pins} {s t : State} (h : pinsMoment p s = .next t) :
    (p.rst = true ∧ t = s.resetTo p.modeStrap)
      ∨ (p.rst = false ∧ ∃ e es, s.offer = e :: es ∧
          t = if p.outReady then { s with out := s.out ++ [e], offer := es } else s)
      ∨ (p.rst = false ∧ s.offer = [] ∧ p.cmdValid = true ∧ exec (decodeCommand s.axisInW p.cmd) s = .next t)
      ∨ (p.rst = false ∧ s.offer = [] ∧ p.cmdValid = false ∧ t = s) := by
  unfold pinsMoment at h
  cases hr : p.rst
  · simp only [hr, Bool.false_eq_true, if_false, State.outValid, Bool.not_false, Bool.true_and] at h
    cases ho : s.offer with
    | nil =>
      simp only [ho, List.isEmpty_nil, Bool.not_true, Bool.false_eq_true, if_false] at h
      cases hv : p.cmdValid <;> simp [hv] at h <;> simp [h]
    | cons e es =>
      simp only [ho, List.isEmpty_cons, Bool.not_false, if_true, State.sinkMoment] at h
      cases hv : p.outReady <;> simp [hv] at h <;> simp [← h]
  · simp [hr] at h
    simp [← h]

/-- What a step can do: nothing, with no input left; a moment of the pins; something at the receiver, which changes
the receiver and the inputs alone. -/
theorem step_cases {s t : State} (h : step s = .next t) :
    (s.inputs = [] ∧ t = s)
      ∨ (∃ p rest, s.inputs = .pins p :: rest ∧ pinsMoment p { s with inputs := rest } = .next t)
      ∨ (∃ bs rest, (s.inputs = .wire bs :: rest ∨ s.inputs = .payload bs :: rest) ∧
          t = { s with rx := t.rx, inputs := t.inputs }) := by
  unfold step at h
  split at h
  · simp at h
    exact .inl ⟨‹_›, h.symm⟩
  · exact .inr (.inl ⟨_, _, ‹_›, h⟩)
  · refine .inr (.inr ⟨_, _, .inl ‹_›, ?_⟩)
    unfold wireMoment at h
    split at h
    · rename_i hd
      rw [exec_symbol hd] at h
      simp at h
      subst h
      unfold State.unread
      split <;> rfl
    · split at h <;> simp at h <;> subst h
      · rfl
      · unfold State.unread
        split <;> rfl
  · refine .inr (.inr ⟨_, _, .inr ‹_›, ?_⟩)
    unfold payloadMoment at h
    split at h
    · rename_i hd
      obtain ⟨m, rfl⟩ | ⟨r, rfl⟩ := decodeReport_cases hd <;>
        simp [exec, execMouseReport, execGamepadReport, State.parsed] at h <;> subst h <;> rfl
    · simp at h
      subst h
      rfl

/-! ### Runs -/

/-- A run of `k + 1` steps is a step and a run of `k`. -/
theorem run_succ {s t : State} (h : step s = .next t) (k : Nat) :
    Host.Core.run Sys2Proof.core (k + 1) s = Host.Core.run Sys2Proof.core k t := by
  have h' : Sys2Proof.core.step s = .next t := h
  simp only [Host.Core.run, h']

/-- Runs compose. -/
theorem run_add {a : Nat} {s t : State} (h : Host.Core.run Sys2Proof.core a s = .next t) (b : Nat) :
    Host.Core.run Sys2Proof.core (a + b) s = Host.Core.run Sys2Proof.core b t := by
  induction a generalizing s with
  | zero => cases h; simp
  | succ a ih =>
    rw [Nat.add_right_comm]
    simp only [Host.Core.run] at h ⊢
    cases hs : Sys2Proof.core.step s <;> simp [hs] at h ⊢
    exact ih h

/-- Lists of operations compose. -/
theorem runOps_append {a : List Instr} {s t : State} (h : runOps a s = .next t) (b : List Instr) :
    runOps (a ++ b) s = runOps b t := by
  induction a generalizing s with
  | nil => cases h; rfl
  | cons i a ih =>
    simp only [List.cons_append, runOps] at h ⊢
    cases hs : exec i s <;> simp [hs] at h ⊢
    exact ih h

end Sys2Proof.Machine
end

