-- ==== Sys2Proof/Tests/Slice0.lean ====
section
/-! SUPPORT. Own tests: well-formedness checks, words written out from the encodings of the spec, one step of each
instruction on a small state, and for every statement with hypotheses a state and operands that meet them. Expected
values are the spec's (95_test_vectors.md and the rules' examples), not the model's. -/

namespace Sys2Proof.Tests

open Sys2Proof Sys2Proof.Machine

/-! ### Helpers -/

/-- The state an answer leads to, `s` where it leads to none. -/
def nextOf (s : State) (r : Result) : State :=
  match r with
  | .next t => t
  | .fault _ => s
  | .refused _ => s

/-- One instruction at `s`. -/
def after (i : Instr) (s : State) : State := nextOf s (exec i s)

/-- Reset in STREAM mode, `AXIS_IN_W` 16 as in the vectors of the spec. -/
def strm : State := State.resetWith .stream 16

/-- Reset in DGRAM mode. -/
def dgrm : State := State.resetWith .dgram 16

/-- STREAM mode with a frame open and nothing on offer. -/
def opnd : State := { strm with ph := .opened }

/-- Halted with cause `c`. -/
def hltd (c : Cause) : State := { strm with ecause := c }

/-- The mouse snapshot of vector S1. -/
def s1 : MouseSnapshot :=
  { left := true, right := false, middle := false, x := 4, y := -4, vscroll := 0, hscroll := 0 }

/-- The gamepad snapshot with nothing pressed and every axis in the centre. -/
def neutral : GamepadSnapshot :=
  { y := false, b := false, a := false, x := false, l := false, r := false, zl := false, zr := false,
    minus := false, plus := false, ls := false, rs := false, home := false, capture := false,
    left := false, right := false, up := false, down := false, lx := 128, ly := 128, rx := 128, ry := 128 }

/-- STREAM mode with the report of S1 in the buffer. -/
def loaded : State := { strm with rb := rbOf (mouseReport s1), rlen := .mouse }

/-- A moment of the pins. -/
def pin (rst cmdValid outReady : Bool) (cmd : CmdWord) : Pins :=
  { rst := rst, modeStrap := .dgram, cmdValid := cmdValid, cmd := cmd, outReady := outReady }

/-- A byte that is not the last of its unit. -/
def ob (b : Byte) : OutByte := { byte := b, last := false }

/-! ### Well-formedness -/

theorem test_wf_lit_end_refused : (Instr.symLit 0xC0).wf 16 = false := by decide
theorem test_wf_lit_esc_refused : (Instr.symLit 0xDB).wf 16 = false := by decide
theorem test_wf_lit_plain : (Instr.symLit 0xDC).wf 16 = true := by decide

/-- Bits 7:6 of buttons2 set (R72). -/
theorem test_wf_buttons2_refused :
    (Instr.gamepadReport { buttons1 := 0, buttons2 := 0x40, dpad := 15, lx := 0, ly := 0, rx := 0, ry := 0 }).wf 16
      = false := by decide

/-- dpad 8 is never emitted (R72). -/
theorem test_wf_dpad_refused :
    (Instr.gamepadReport { buttons1 := 0, buttons2 := 0, dpad := 8, lx := 0, ly := 0, rx := 0, ry := 0 }).wf 16
      = false := by decide

/-- An axis value that its signed field cannot hold (R8, R65): 512 in 10 bits, 32768 and -32769 in 16. -/
theorem test_wf_axis_refused :
    (Instr.encGpad { neutral with lx := 512 }).wf 10 = false ∧ (Instr.encGpad { neutral with ry := 32768 }).wf 16 = false ∧
    (Instr.encGpad { neutral with rx := -32769 }).wf 16 = false ∧ (Instr.encGpad { neutral with lx := 512 }).wf 11 = true := by
  decide

/-! ### Decoding, from the encodings of 30_encoding.md -/

/-- Format N (R61) and the reserved codes (R69): the operation code alone. -/
theorem test_decode_opcodes :
    decodeCommand 16 0x1 = .crcInit ∧ decodeCommand 16 0x4 = .frmOpen ∧ decodeCommand 16 0x6 = .frmClose ∧
    decodeCommand 16 0xA = .send ∧ decodeCommand 16 0x0 = .reserved0 ∧ decodeCommand 16 0x7 = .reserved7 ∧
    decodeCommand 16 0xB = .reservedB ∧ decodeCommand 16 0xC = .reservedC ∧ decodeCommand 16 0xD = .reservedD ∧
    decodeCommand 16 0xE = .reservedE ∧ decodeCommand 16 0xF = .reservedF := by decide +kernel

/-- Formats B and R (R62, R63); 0x3FF612 has junk above bit 11 (R66). -/
theorem test_decode_byte_and_register :
    decodeCommand 16 0x612 = .crcByte 0x61 ∧ decodeCommand 16 0x3FF612 = .crcByte 0x61 ∧
    decodeCommand 16 0xC05 = .frmData 0xC0 ∧ decodeCommand 16 0x33 = .rdsr 3 ∧ decodeCommand 16 0xF3 = .rdsr 15 := by
  decide +kernel

/-- Format M (R64), vectors of 95_test_vectors.md. -/
theorem test_decode_mouse :
    decodeCommand 16 0x7FFE000218 = .encMouse s1 ∧
    decodeCommand 16 0x803FFFC0007FFF88 = .encMouse
      { left := false, right := false, middle := false, x := -1, y := -32768, vscroll := 32767, hscroll := 256 } ∧
    decodeCommand 16 0x48 = .encMouse
      { left := false, right := false, middle := true, x := 0, y := 0, vscroll := 0, hscroll := 0 } := by
  decide +kernel

/-- Format G (R65), vectors of 95_test_vectors.md. -/
theorem test_decode_gamepad :
    decodeCommand 16 0x20002000200020000009 = .encGpad neutral ∧
    decodeCommand 16 0x2000203FFFC040180049
      = .encGpad { neutral with a := true, up := true, right := true, lx := 256, ly := -1 } ∧
    decodeCommand 16 0x20401FC03FC000000009 = .encGpad { neutral with lx := 0, ly := 255, rx := 127, ry := 129 } ∧
    decodeCommand 16 0x20002000200020240009 = .encGpad { neutral with down := true, left := true } := by
  decide +kernel

/-- Format G (R65) at other widths, the axes written out in bits 22+(k+1)W-1 : 22+kW: at 10 bits lx 511, ly -512, rx 0, ry
-1; at 20 bits lx 256, ly -1, rx 128, ry -524288, and junk above bit 101 (R66). -/
theorem test_decode_gamepad_widths :
    decodeCommand 10 (0x9 + 0x1FF * 2 ^ 22 + 0x200 * 2 ^ 32 + 0x3FF * 2 ^ 52)
      = .encGpad { neutral with lx := 511, ly := -512, rx := 0, ry := -1 } ∧
    decodeCommand 20 (0x9 + 0x100 * 2 ^ 22 + 0xFFFFF * 2 ^ 42 + 0x80 * 2 ^ 62 + 0x80000 * 2 ^ 82 + 2 ^ 102)
      = .encGpad { neutral with lx := 256, ly := -1, rx := 128, ry := -524288 } := by decide +kernel

/-- `CMD_W` (R7): 86 bits for the default width, 62 for the least. -/
theorem test_cmdW : Config.cmdW 16 = 86 ∧ Config.cmdW 10 = 62 := by decide

/-- The report of S1 and a gamepad report, by offset (R70, R71). -/
theorem test_decode_reports :
    decode 16 (.report [0x01, 0x00, 0x09, 0x01, 0x01, 0x04, 0x00, 0xFC, 0xFF, 0x00, 0x00, 0x00, 0x00])
      = .ok (.mouseReport s1) ∧
    decode 16 (.report [0x01, 0x02, 0x08, 0x00, 0x04, 0x00, 0x01, 0xFF, 0x00, 0x80, 0x80, 0x00])
      = .ok (.gamepadReport
          { buttons1 := 0x04, buttons2 := 0, dpad := 1, lx := 255, ly := 0, rx := 128, ry := 128 }) := by
  exact ⟨rfl, rfl⟩

/-- What `parse_report` gives None for (family DEF). -/
theorem test_decode_report_rejects :
    decode 16 (.report [0x02, 0x00, 0x09, 0x01, 0x01, 0x04, 0x00, 0xFC, 0xFF, 0x00, 0x00, 0x00, 0x00])
      = .error .wrongVersion ∧
    decode 16 (.report [0x01, 0x01, 0x09, 0x01, 0x00, 0x00, 0x00, 0x00, 0x00, 0x00, 0x00, 0x00, 0x00])
      = .error .unknownLayout ∧
    decode 16 (.report [0x01, 0x00, 0x09, 0x01, 0x01, 0x04, 0x00, 0xFC, 0xFF, 0x00, 0x00, 0x00])
      = .error .unknownLayout := by
  exact ⟨rfl, rfl, rfl⟩

/-- The four symbols (R73), and the escapes that are none (R75). -/
theorem test_decode_symbols :
    decode 16 (.symbol [0xC0]) = .ok .symEnd ∧ decode 16 (.symbol [0xDC]) = .ok (.symLit 0xDC) ∧
    decode 16 (.symbol [0xDB, 0xDC]) = .ok .symEend ∧ decode 16 (.symbol [0xDB, 0xDD]) = .ok .symEesc ∧
    decode 16 (.symbol [0xDB]) = .error .escAtEnd ∧ decode 16 (.symbol [0xDB, 0x61]) = .error .badEscape ∧
    decode 16 (.symbol [0xC0, 0xC0]) = .error .trailingBytes := by
  exact ⟨rfl, rfl, rfl, rfl, rfl, rfl, rfl⟩

/-- Rows of the table as numbers, patterns as spec/opcode_table.json writes them. -/
theorem test_decode_table_rows :
    decodeTableWord 8 0x0 = some .reserved0 ∧ decodeTableWord 8 0xA = some .send ∧
    decodeTableWord 88 0x7FFE000218 = some (.encMouse s1) ∧
    decodeTableWord 8 192 = some .symEnd ∧ decodeTableWord 16 56284 = some .symEend ∧
    decodeTableWord 16 56285 = some .symEesc ∧ decodeTableWord 8 0x41 = some (.symLit 0x41) ∧
    decodeTableWord 104 0x01000901010400FCFF00000000 = some (.mouseReport s1) ∧
    decodeTableWord 96 0x010208000400010000000000 = some (.gamepadReport
      { buttons1 := 4, buttons2 := 0, dpad := 1, lx := 0, ly := 0, rx := 0, ry := 0 }) := by
  decide +kernel

/-! ### One step of each instruction -/

/-- R107: a host checksum starts at the initial value. -/
theorem test_crc_init : (after .crcInit { strm with crc := 0x12345678 }).crc = 0xFFFFFFFF := by decide

/-- R107: SEQ while a frame is open, CRC unchanged. -/
theorem test_crc_init_open :
    after .crcInit { opnd with crc := 1 } = { opnd with crc := 1, ecause := .seq } := by decide

/-- R108's example. -/
theorem test_crc_byte : (after (.crcByte 0x61) strm).crc = 0x174841BC := by decide +kernel

/-- Family FLT: `CRC.BYTE` in an open frame. -/
theorem test_crc_byte_open : (after (.crcByte 0x62) { opnd with crc := 0x174841BC }).crc = 0x174841BC
    ∧ (after (.crcByte 0x62) opnd).ecause = .seq := by decide +kernel

/-- R30: `STATUS` after `ENC.MOUSE` is 0xD0. -/
theorem test_rdsr_status : (after (.rdsr 1) loaded).results = [0xD0] := by decide +kernel

/-- R34: `RBV` after `ENC.MOUSE` of S1, also when halted. -/
theorem test_rdsr_rbv : (after (.rdsr 5) { loaded with ecause := .seq }).results
    = [0x00000000FFFC00040101090001] := by decide +kernel

/-- R124's example: `(C0, 0)` and `STATUS` 0x02. -/
theorem test_frm_open : (after .frmOpen strm).offer = [ob 0xC0]
    ∧ (after .frmOpen strm).statusWord = 0x02 := by decide +kernel

/-- P6: framing on a datagram sink. -/
theorem test_frm_open_dgram : after .frmOpen dgrm = { dgrm with ecause := .mode } := by decide

/-- R125's example: `DB DC`, the raw byte into the checksum. -/
theorem test_frm_data : (after (.frmData 0xC0) opnd).offer = [ob 0xDB, ob 0xDC]
    ∧ (after (.frmData 0xC0) opnd).crc = 0xB699D2C2 := by decide +kernel

/-- R174: MODE outranks SEQ. -/
theorem test_frm_data_dgram : (after (.frmData 0) dgrm).ecause = .mode := by decide

/-- R126's example: trailer `3D 2D 66 49`, then the last END. -/
theorem test_frm_close : (after .frmClose { opnd with crc := 0xB699D2C2 }).offer
    = [ob 0x3D, ob 0x2D, ob 0x66, ob 0x49, { byte := 0xC0, last := true }] := by decide +kernel

/-- R126: `CRC` is not written, `PH` goes to IDLE. -/
theorem test_frm_close_keeps_crc : (after .frmClose { opnd with crc := 0xB699D2C2 }).crc = 0xB699D2C2
    ∧ (after .frmClose opnd).ph = .idle := by decide +kernel

/-- S1: the report of the document's example. -/
theorem test_enc_mouse : (after (.encMouse s1) strm).rb.toList
    = [0x01, 0x00, 0x09, 0x01, 0x01, 0x04, 0x00, 0xFC, 0xFF, 0x00, 0x00, 0x00, 0x00] := by decide +kernel

/-- P10: legal while a frame is open, which it leaves alone. -/
theorem test_enc_mouse_open : (after (.encMouse s1) opnd).ph = .opened
    ∧ (after (.encMouse s1) opnd).rlen = .mouse := by decide

/-- R91's example, over a stale mouse report. -/
theorem test_enc_gpad :
    (after (.encGpad { neutral with a := true, up := true, right := true, lx := 256, ly := -1 })
      { loaded with rb := loaded.rb.set 12 0xFF }).rb.toList
    = [0x01, 0x02, 0x08, 0x00, 0x04, 0x00, 0x01, 0xFF, 0x00, 0x80, 0x80, 0x00, 0x00] := by decide +kernel

/-- All buttons, all directions, corner axes (95_test_vectors.md). -/
theorem test_gamepad_all : gamepadReport
    { y := true, b := true, a := true, x := true, l := true, r := true, zl := true, zr := true,
      minus := true, plus := true, ls := true, rs := true, home := true, capture := true,
      left := true, right := true, up := true, down := true, lx := 0, ly := 255, rx := -32768, ry := 32767 }
    = [0x01, 0x02, 0x08, 0x00, 0xFF, 0x3F, 0x0F, 0x00, 0xFF, 0x00, 0xFF, 0x00] := by decide +kernel

/-- P1: the nineteen bytes of STREAM `SEND`. -/
theorem test_send_stream : (after .send loaded).offer
    = withLast [0xC0, 0x01, 0x00, 0x09, 0x01, 0x01, 0x04, 0x00, 0xFC, 0xFF, 0x00, 0x00, 0x00, 0x00,
        0xEB, 0xCE, 0x68, 0x7D, 0xC0]
    ∧ (after .send loaded).crc = 0x82973114 := by decide +kernel

/-- P1 in DGRAM mode: the raw report, `CRC` untouched. -/
theorem test_send_dgram : (after .send { loaded with mode := .dgram }).offer
    = withLast [0x01, 0x00, 0x09, 0x01, 0x01, 0x04, 0x00, 0xFC, 0xFF, 0x00, 0x00, 0x00, 0x00]
    ∧ (after .send { loaded with mode := .dgram }).crc = 0xFFFFFFFF := by decide +kernel

/-- Family FLT: the seven reserved codes from reset. -/
theorem test_reserved : ∀ i ∈ [Instr.reserved0, .reserved7, .reservedB, .reservedC, .reservedD, .reservedE, .reservedF],
    after i strm = { strm with ecause := .illegal } := by decide

/-- P5 step 8: a halted block refuses, the first cause stays. -/
theorem test_halted_refuses : after (.rdsr 6) (hltd .seq) = hltd .seq ∧ after .reserved0 (hltd .seq) = hltd .seq := by
  decide

/-- Family DEF: an END that closes the candidate of payload `61`. -/
theorem test_sym_end :
    (after .symEnd { strm with rx := { Receiver.start with inside := true, buf := [0x61, 0x43, 0xBE, 0xB7, 0xE8] } }).rx.frames
      = [[0x61]] := by decide +kernel

/-- The three data symbols inside a frame. -/
theorem test_sym_data :
    (after .symEesc (after .symEend (after (.symLit 0xDD) (after .symEnd strm)))).rx.buf
      = [0xDD, 0xDB, 0xDC, 0xDB, 0xDD] := by decide

/-- R157: a parsed report. -/
theorem test_mouse_report : (after (.mouseReport s1) strm).rx.reports = [.mouse s1] := by decide

/-- R157: the packed bytes. -/
theorem test_gamepad_report :
    (after (.gamepadReport { buttons1 := 4, buttons2 := 0, dpad := 1, lx := 255, ly := 0, rx := 128, ry := 128 }) strm).rx.reports
      = [.gamepad { buttons1 := 4, buttons2 := 0, dpad := 1, lx := 255, ly := 0, rx := 128, ry := 128 }] := by decide

/-! ### Steps of the machine -/

/-- `withFetchWord`: the next step runs exactly that instruction, from reset. -/
theorem test_fetch_runs : nextOf State.reset (step (State.reset.withFetchWord 8 0x4)) = after .frmOpen State.reset
    ∧ nextOf State.reset (step (State.reset.withFetchWord 16 56284)) = after .symEend State.reset := by decide +kernel

/-- The width that a step decodes with is the run's (R7): an axis of 256 saturates, read from 10-bit fields. -/
theorem test_step_uses_the_width :
    (nextOf strm (step { State.resetWith .stream 10 with
      inputs := [commandPins .stream (0x9 + 0x100 * 2 ^ 22 + 0x3FF * 2 ^ 32 + 0x80 * 2 ^ 42 + 0x80 * 2 ^ 52)] })).rb.toList
      = [0x01, 0x02, 0x08, 0x00, 0x00, 0x00, 0x0F, 0xFF, 0x00, 0x80, 0x80, 0x00, 0x00] := by decide +kernel

/-- R194: with `FRM.CLOSE`'s bytes still on offer the frame is unterminated; when the sink has taken them the run has
ended well; with the frame open it has not. -/
theorem test_endsWell :
    (after .frmClose opnd).endsWell = false ∧ (after .frmClose opnd).drained.endsWell = true ∧
    opnd.endsWell = false ∧ (hltd .seq).endsWell = false ∧ strm.endsWell = true := by decide +kernel

/-- The receiver drops what is no report (R157, R151). -/
theorem test_payload_dropped :
    nextOf strm (step { strm with inputs := [.payload [0x02, 0x00, 0x09, 0x01]] }) = strm := by decide +kernel

/-- Family DEF: noise, an empty payload, an empty run, payload `61`, a tail. -/
theorem test_deframe_stream :
    deframeStream [0x55, 0xAA, 0xC0, 0, 0, 0, 0, 0xC0, 0xC0, 0x61, 0x43, 0xBE, 0xB7, 0xE8, 0xC0, 0x7F]
      = [[], [0x61]] := by decide +kernel

/-- Family DEF: one END serves two candidates (R155; notes/assumptions/22.md); a frame abandoned after three bytes is
dropped. -/
theorem test_deframe_stream_shared_end :
    deframeStream [0xC0, 0x61, 0x43, 0xBE, 0xB7, 0xE8, 0xC0, 0x61, 0x43, 0xBE, 0xB7, 0xE8, 0xC0] = [[0x61], [0x61]] ∧
    deframeStream [0xC0, 0x01, 0x00, 0x09, 0xC0, 0x61, 0x43, 0xBE, 0xB7, 0xE8, 0xC0] = [[0x61]] := by decide +kernel

/-- Family DEF: what `deframe_one` drops. -/
theorem test_deframe_one_drops :
    deframeOne [0xC0, 0x61, 0x43, 0xBE, 0xB7, 0xE9, 0xC0] = none ∧
    deframeOne [0xC0, 0xDB, 0x61, 0x43, 0xBE, 0xB7, 0xE8, 0xC0] = none ∧
    deframeOne [0xC0, 0x0C, 0xA6, 0xA3, 0xB4, 0xDB, 0xC0] = none ∧ deframeOne [0xC0, 0, 0, 0, 0xC0] = none ∧
    deframeOne [0xC0] = none ∧ deframeOne [0xC0, 0xC0] = none ∧
    deframeOne [0xC0, 0x61, 0xC0, 0x43, 0xBE, 0xB7, 0xE8, 0xC0] = none := by decide +kernel

/-- Family FRM: two trailer bytes stuffed. -/
theorem test_frame_stuffed_trailer :
    frame [0x05, 0xE4] = [0xC0, 0x05, 0xE4, 0xDB, 0xDD, 0xDB, 0xDC, 0xC9, 0x9B, 0xC0] := by decide +kernel

/-! ### Witnesses: the hypotheses of the statements are met -/

/-- At the default width, and a gamepad instruction with the extreme axis values at the least width. -/
theorem witness_CommandWordRoundTripIgnoresHighBits :
    (Instr.crcByte 0x61).wf 16 = true ∧ encode 16 (.crcByte 0x61) = .command 0x612 ∧
    (∀ k, k < significantBits 16 (.crcByte 0x61) → (0x3FF612 : CmdWord).testBit k = (0x612 : CmdWord).testBit k) ∧
    encode 16 (.encMouse s1) = .command 0x7FFE000218 ∧ encode 16 (.encGpad neutral) = .command 0x20002000200020000009 ∧
    encode 16 .send = .command 0xA ∧ encode 16 (.rdsr 15) = .command 0xF3 ∧
    10 ≤ 10 ∧ (Instr.encGpad { neutral with lx := 511, ly := -512, rx := 0, ry := -1 }).wf 10 = true ∧
    encode 10 (.encGpad { neutral with lx := 511, ly := -512, rx := 0, ry := -1 })
      = .command (0x9 + 0x1FF * 2 ^ 22 + 0x200 * 2 ^ 32 + 0x3FF * 2 ^ 52) := by decide +kernel

/-- Both premises of the clause on `CMD_W`. -/
theorem witness_EveryCommandWordEncodesItsInstruction :
    10 ≤ 16 ∧ 13 ≤ 16 ∧ 10 ≤ 10 ∧ ∀ m, decodeCommand 10 0x612 ≠ .encMouse m :=
  ⟨by decide, by decide, by decide, fun m => by
    rw [show decodeCommand 10 0x612 = .crcByte 0x61 from rfl]
    exact Instr.noConfusion⟩

theorem witness_FrameIsItsSymbols : symbolOf 0xC0 = .symEend ∧ symbolOf 0xDB = .symEesc ∧ symbolOf 0x61 = .symLit 0x61 := by
  decide

theorem witness_ReportAndSymbolRoundTrip :
    (Instr.symLit 0xDD).isCommand = false ∧ (Instr.symLit 0xDD).wf 16 = true ∧
    encode 16 (.symLit 0xDD) = .symbol [0xDD] ∧ encode 16 .symEesc = .symbol [0xDB, 0xDD] ∧
    (Instr.gamepadReport { buttons1 := 0xFF, buttons2 := 0x3F, dpad := 7, lx := 0, ly := 255, rx := 0, ry := 255 }).wf 16
      = true ∧
    (Instr.mouseReport s1).wf 16 = true := by decide +kernel

/-- All three arms of the clamp, at the values where they meet, and the least width. -/
theorem witness_AxisClampSaturates :
    (-1 : Int) < 0 ∧ (255 : Int) < 256 ∧ (0 : Int) ≤ 0 ∧ (0 : Int) ≤ 255 ∧ (255 : Int) ≤ 255 ∧ 10 ≤ 10 ∧
    (256 : Int) ∈ ([-1, 256, 128, 0, 255] : List Int) := by decide

theorem witness_MouseReportRecoversItsSnapshot : mouseReport s1 = mouseReport s1 := rfl

theorem witness_ReportsHaveFixedLengthAndHeader : (9 : Byte) ∈ ([1, 0, 9, 1, 2, 8] : List Byte) := by decide

theorem witness_EscapingIsByteByByte : (0xDC : Byte) ≠ 0xC0 ∧ (0xDC : Byte) ≠ 0xDB := by decide

theorem witness_CrcResidueIsConstant : ([0x43, 0xBE, 0xB7, 0xE8] : List Byte).length = 4 := by decide

/-- An escape inside a frame, a payload with no byte to stuff, one with, and equal frames. -/
theorem witness_FramesAreDelimitedAndBounded :
    ([0xDB, 0xDC] ++ [0x3D, 0x2D, 0x66, 0x49] : List Byte) = [] ++ 0xDB :: [0xDC, 0x3D, 0x2D, 0x66, 0x49] ∧
    (∀ b ∈ ([] : List Byte) ++ le32 (crc32 []), b ≠ 0xC0 ∧ b ≠ 0xDB) ∧
    (∃ b ∈ [0xC0] ++ le32 (crc32 [0xC0]), b = 0xC0 ∨ b = 0xDB) ∧
    frameWith crc32 [0x61] = frameWith crc32 [0x61] := by decide +kernel

/-- Both sides of the equivalence hold somewhere. -/
theorem witness_DeframeOneAcceptsExactlyFrames :
    deframeOneWith crc32 [0xC0, 0xDB, 0xDC, 0x3D, 0x2D, 0x66, 0x49, 0xC0] = some [0xC0] ∧
    frameWith crc32 [0xC0] = [0xC0, 0xDB, 0xDC, 0x3D, 0x2D, 0x66, 0x49, 0xC0] ∧
    (0xC0 : Byte) ∉ ([0xDB, 0xDD, 0xDC] : List Byte) ∧ unescape [0xDB, 0xDD, 0xDC] = some [0xDB, 0xDC] := by
  decide +kernel

theorem witness_StreamOfFramesDeframes : (0xC0 : Byte) ∉ ([0x55, 0xAA, 0xDB] : List Byte) := by decide

/-- Words with the operation codes of the operations' statements, operand bits set. -/
theorem witness_operation_words :
    (0xFFFF1 : CmdWord) % 16 = 0x1 ∧ (0x612 : CmdWord) % 16 = 0x2 ∧
    (0xF3 : CmdWord) % 16 = 0x3 ∧ (0x4 : CmdWord) % 16 = 0x4 ∧
    (0xC05 : CmdWord) % 16 = 0x5 ∧ (0x6 : CmdWord) % 16 = 0x6 ∧
    (0x7FFE000218 : CmdWord) % 16 = 0x8 ∧
    (0x20002000200020000009 : CmdWord) % 16 = 0x9 ∧ (0xA : CmdWord) % 16 = 0xA := by
  decide +kernel

theorem witness_CrcInitStartsAChecksum :
    strm.ecause = .noFault ∧ strm.ph = .idle ∧ opnd.ecause = .noFault ∧ opnd.ph = .opened ∧
    (hltd .seq).ecause ≠ .noFault := by decide

theorem witness_CrcByteAbsorbsOneByte :
    dgrm.ecause = .noFault ∧ dgrm.ph = .idle ∧ opnd.ecause = .noFault ∧ opnd.ph = .opened ∧
    (hltd .mode).ecause ≠ .noFault := by decide

theorem witness_HostChecksumIsCrc32 : dgrm.ecause = .noFault ∧ dgrm.ph = .idle := by decide

theorem witness_FrmOpenStartsAFrame :
    (strm.ecause = .noFault ∧ strm.mode = .stream ∧ strm.ph = .idle) ∧
    (dgrm.ecause = .noFault ∧ dgrm.mode = .dgram) ∧
    (opnd.ecause = .noFault ∧ opnd.mode = .stream ∧ opnd.ph = .opened) ∧ (hltd .seq).ecause ≠ .noFault := by decide

theorem witness_FrmDataStuffsOneByte :
    (opnd.ecause = .noFault ∧ opnd.mode = .stream ∧ opnd.ph = .opened) ∧
    (dgrm.ecause = .noFault ∧ dgrm.mode = .dgram) ∧
    (strm.ecause = .noFault ∧ strm.mode = .stream ∧ strm.ph = .idle) ∧ (hltd .seq).ecause ≠ .noFault := by decide

theorem witness_FrmCloseEndsTheFrame :
    (opnd.ecause = .noFault ∧ opnd.mode = .stream ∧ opnd.ph = .opened) ∧
    (dgrm.ecause = .noFault ∧ dgrm.mode = .dgram) ∧
    (strm.ecause = .noFault ∧ strm.mode = .stream ∧ strm.ph = .idle) ∧ (hltd .seq).ecause ≠ .noFault := by decide

theorem witness_FrameOperationsEmitTheFrame :
    loaded.mode = .stream ∧ loaded.ph = .idle ∧ loaded.ecause = .noFault := by decide

theorem witness_EncMouseWritesTheReport : opnd.ecause = .noFault ∧ (hltd .noReport).ecause ≠ .noFault := by decide

theorem witness_EncGpadWritesTheReport : dgrm.ecause = .noFault ∧ (hltd .noReport).ecause ≠ .noFault := by decide

theorem witness_EncodingIsAFunctionOfTheWord :
    ((∃ m, Instr.encMouse s1 = .encMouse m) ∨ (∃ g, Instr.encMouse s1 = .encGpad g)) ∧
    ((∃ m, Instr.encGpad neutral = .encMouse m) ∨ (∃ g, Instr.encGpad neutral = .encGpad g)) ∧
    strm.ecause = .noFault ∧ loaded.ecause = .noFault :=
  ⟨.inl ⟨s1, rfl⟩, .inr ⟨neutral, rfl⟩, rfl, rfl⟩

theorem witness_SendHandsOverTheReport :
    (loaded.ecause = .noFault ∧ loaded.ph = .idle ∧ loaded.rlen ≠ .empty) ∧
    (opnd.ecause = .noFault ∧ opnd.ph = .opened) ∧
    (strm.ecause = .noFault ∧ strm.ph = .idle ∧ strm.rlen = .empty) ∧ (hltd .mode).ecause ≠ .noFault := by decide

theorem witness_StreamSendIsTheFrameOperations :
    loaded.ecause = .noFault ∧ loaded.mode = .stream ∧ loaded.ph = .idle ∧ loaded.rlen ≠ .empty := by decide

/-- The first and the last reserved register number. -/
theorem witness_RdsrReturnsTheRegister :
    6 ≤ (6 : BitVec 4).toNat ∧ 6 ≤ (15 : BitVec 4).toNat ∧ strm.ecause = .noFault ∧ (hltd .seq).ecause ≠ .noFault := by
  decide

theorem witness_StatusRegisterFields : (pin false false true 0).rst = false := by decide

theorem witness_ReservedCodesRaiseIllegal :
    ((0x0 : CmdWord) % 16 = 0x0 ∧ (0x17 : CmdWord) % 16 = 0x7 ∧
      (0x1B : CmdWord) % 16 = 0xB ∧ (0x1C : CmdWord) % 16 = 0xC ∧
      (0x1D : CmdWord) % 16 = 0xD ∧ (0x1E : CmdWord) % 16 = 0xE ∧
      (0x1F : CmdWord) % 16 = 0xF) ∧
    Instr.reservedF ∈ [Instr.reserved0, .reserved7, .reservedB, .reservedC, .reservedD, .reservedE, .reservedF] ∧
    6 ≤ (6 : BitVec 4).toNat ∧ strm.ecause = .noFault ∧ (hltd .illegal).ecause ≠ .noFault := by decide +kernel

theorem witness_SymbolsBuildAndCloseCandidates :
    { Receiver.start with inside := true }.inside = true ∧ strm.rx.inside = false ∧ strm.rx.buf = [] ∧
    ({ strm with rx := { Receiver.start with inside := true, buf := [0x61, 0x43, 0xBE, 0xB7, 0xE8] } } : State).rx.inside
      = true ∧
    ({ strm with rx := { Receiver.start with inside := true, buf := [0x61, 0x43, 0xBE, 0xB7, 0xE8] } } : State).rx.buf
      = escaped ([0x61] ++ le32 (crc32 [0x61])) := by decide +kernel

/-- A cell of every kind: refused, a cause, ok. -/
theorem witness_LegalityMatrixDecidesOutcome :
    Instr.send.isCommand = true ∧ (strm.mode = .dgram → strm.ph = .idle) ∧ (dgrm.mode = .dgram → dgrm.ph = .idle) ∧
    legality .send strm.hasReport strm.column = .raises .noReport ∧
    legality .send loaded.hasReport loaded.column = .ok ∧
    legality .send (hltd .seq).hasReport (hltd .seq).column = .refused ∧
    legality .send opnd.hasReport opnd.column = .raises .seq := by decide

theorem witness_HaltedBlockOnlyReadsStatus :
    (∀ i ∈ [Instr.frmClose, .rdsr 2, .rdsr 6], i.isCommand = true) ∧ (hltd .seq).ecause ≠ .noFault ∧
    (pin false true true 0x4).rst = false ∧ (hltd .seq).offer = [] ∧ (5 : BitVec 4).toNat ≤ 5 := by decide

/-- A fault: `SEND` with no report. -/
theorem witness_FaultEntryRecordsTheCauseAlone :
    Instr.send.isCommand = true ∧ exec .send strm = .next { strm with ecause := .noReport } ∧
    ({ strm with ecause := .noReport } : State).ecause ≠ strm.ecause ∧ (pin false true true 0x4).rst = false :=
  ⟨rfl, rfl, by decide, rfl⟩

/-- A halted state at a moment that presents a command. -/
theorem witness_OnlyResetLeavesTheHaltedState :
    (hltd .seq).ecause ≠ .noFault ∧
    step { hltd .seq with inputs := [.pins (pin false true true 0x4)] } = .next (hltd .seq) ∧
    ∀ p rest, ({ hltd .seq with inputs := [.pins (pin false true true 0x4)] } : State).inputs = .pins p :: rest →
      p.rst = false :=
  ⟨by decide, rfl, fun p rest h => by
    simp only [List.cons.injEq, Input.pins.injEq] at h
    rw [← h.1]
    rfl⟩

/-- Reset in the middle of an operation, over a command. -/
theorem witness_ResetMomentRestoresResetValues :
    ({ opnd with offer := [ob 1], inputs := [.pins (pin true true true 0x4)] } : State).inputs
      = .pins (pin true true true 0x4) :: [] ∧
    (pin true true true 0x4).rst = true := by decide

theorem witness_StepRunsTheDecodedInstruction :
    ({ strm with inputs := [.pins (pin false true false 0x4)] } : State).cmdReady (pin false true false 0x4) = true ∧
    (pin false true false 0x4).cmdValid = true ∧
    decodeSymbol [0xDB, 0xDC, 0xC0] = .ok (.symEend, [0xC0]) ∧
    decodeReport (mouseReport s1) = .ok (.mouseReport s1) :=
  ⟨rfl, rfl, rfl, rfl⟩

theorem witness_SinkHandshake :
    (pin false true true 0x4).rst = false ∧ ({ strm with offer := [ob 1, ob 2] } : State).offer = ob 1 :: [ob 2] ∧
    (pin false true true 0x4).outReady = true ∧ (pin false true false 0x4).outReady = false := by decide

theorem witness_StepAlwaysAnswersNext :
    strm.inputs = [] ∧ (pin false false true 0x4).rst = false ∧ (pin false false true 0x4).cmdValid = false ∧
    strm.offer = [] := by decide

/-- A step that transfers a byte. -/
theorem witness_OutIsAppendOnly :
    step { strm with offer := [ob 1], inputs := [.pins (pin false false true 0)] } = .next { strm with out := [ob 1] } :=
  rfl

theorem witness_ModeChangesOnlyAtReset :
    step { strm with inputs := [.pins (pin true false true 0)] } = .next dgrm ∧ (pin false true true 0x4).rst = false :=
  ⟨rfl, rfl⟩

theorem witness_UnacceptedWordsDoNotMatter :
    ({ strm with offer := [ob 1] } : State).cmdReady (pin false true true 0x4) = false := by decide

/-- The invariant holds with a report of each kind in the buffer, and in DGRAM mode. -/
theorem witness_EveryStepKeepsTheInvariant :
    loaded.Inv ∧ loaded.rlen = .mouse ∧ dgrm.Inv ∧
    ({ strm with rb := rbOf (gamepadReport neutral), rlen := .gpad } : State).Inv ∧
    ({ strm with rb := rbOf (gamepadReport neutral), rlen := .gpad } : State).rlen = .gpad ∧
    step { loaded with inputs := [.pins (pin false true true 0xA)] } = .next (after .send loaded) :=
  ⟨⟨⟨s1, rfl⟩, by decide, by decide, by decide⟩, rfl, ⟨rfl, by decide, by decide, by decide⟩,
    ⟨⟨neutral, rfl⟩, by decide, by decide, by decide⟩, rfl, rfl⟩

theorem witness_ResetMeetsTheInvariant : 10 ≤ 10 ∧ 10 ≤ strm.axisInW := by decide

theorem witness_ResetStateIsTheSpecs : opnd.axisInW = 16 := rfl

theorem witness_BlockAndReceiverDoNotInterfere :
    step { strm with inputs := [.wire [0xC0]] } = .next (after .symEnd strm) ∧
    step { strm with inputs := [.payload []] } = .next strm ∧
    step { strm with inputs := [.pins (pin false true true 0x4)] } = .next (after .frmOpen strm) :=
  ⟨rfl, rfl, rfl⟩

/-- An operation that emits. -/
theorem witness_OperationsEmitWithinBounds :
    Instr.frmOpen.isCommand = true ∧ exec .frmOpen strm = .next (after .frmOpen strm) ∧
    (after .frmOpen strm).offer = strm.offer ++ [ob 0xC0] := ⟨rfl, rfl, rfl⟩

theorem witness_ReadySinkSeesOperationsInOrder :
    strm.offer = [] ∧ ({ strm with inputs := schedule .stream [0x4, 0x615] ++ [] } : State).inputs
      = schedule .stream [0x4, 0x615] ++ [] ∧
    runOps ([0x4, 0x615].map (decodeCommand strm.axisInW)) strm = .next (after (.frmData 0x61) (after .frmOpen strm)) :=
  ⟨rfl, rfl, rfl⟩

/-- Reset after two transfers of an operation that emits one byte, and after none. -/
theorem witness_ResetCutsAnOperationShort :
    strm.offer = [] ∧
    ({ strm with inputs := commandPins .stream 0x4 :: List.replicate 2 (readyPins .stream) ++ resetPins .dgram :: [] } : State).inputs
      = commandPins .stream 0x4 :: List.replicate 2 (readyPins .stream) ++ resetPins .dgram :: [] ∧
    ({ strm with inputs := commandPins .stream 0x4 :: List.replicate 0 (readyPins .stream) ++ resetPins .dgram :: [] } : State).inputs
      = commandPins .stream 0x4 :: List.replicate 0 (readyPins .stream) ++ resetPins .dgram :: [] := ⟨rfl, rfl, rfl⟩

/-- A run that opens and closes a frame. -/
theorem witness_StreamRunsEmitWholeFrames :
    (∀ i ∈ [Instr.frmOpen, .frmData 0xC0, .frmClose], i.isCommand = true) ∧ strm.mode = .stream ∧ strm.ph = .idle ∧
    runOps [.frmOpen, .frmData 0xC0, .frmClose] strm
      = .next (after .frmClose (after (.frmData 0xC0) (after .frmOpen strm))) ∧
    (after .frmClose (after (.frmData 0xC0) (after .frmOpen strm))).ph = .idle :=
  ⟨by decide, rfl, rfl, rfl, rfl⟩

/-- P4's beginning. -/
theorem witness_DatagramRunsEmitWholeReports :
    (∀ i ∈ [Instr.encGpad neutral, .send], i.isCommand = true) ∧ dgrm.mode = .dgram ∧ dgrm.bufferHoldsReport ∧
    runOps [.encGpad neutral, .send] dgrm = .next (after .send (after (.encGpad neutral) dgrm)) :=
  ⟨by decide, rfl, rfl, rfl⟩

theorem witness_ReceiverStepsAreDeframeStream :
    ({ strm with inputs := [.wire [0x55, 0xC0, 0xDB, 0x61]] } : State).inputs = .wire [0x55, 0xC0, 0xDB, 0x61] :: [] ∧
    strm.rx.inside = false ∧ strm.rx.buf = [] := ⟨rfl, rfl, rfl⟩

theorem witness_MouseSnapshotReachesTheReceiver :
    (strm.ecause = .noFault ∧ strm.ph = .idle ∧ strm.mode = .stream) ∧
    (dgrm.ecause = .noFault ∧ dgrm.ph = .idle ∧ dgrm.mode = .dgram) := by decide

end Sys2Proof.Tests
end

