-- ==== Sys2Proof/Proofs/StepTotal.lean ====
section
/-! Every step answers a next state, and an idle block holds its state (00_scope.md R11, 60_exceptions.md R176, R179). -/

namespace Sys2Proof.Machine

/-! ### Each operation answers a next state

The two guards an operation's meaning begins with, refusal while halted and `raise OpFault`, are next states themselves,
so a meaning answers a next state as soon as its completed effect does. -/

/-- Refusal while halted is a next state (R173). -/
theorem State.unlessHalted_exists_next {s : State} {op : State → Result} (h : ∃ t, op s = .next t) :
    ∃ t, s.unlessHalted op = .next t := by
  unfold State.unlessHalted
  split
  · exact h
  · exact ⟨s, rfl⟩

/-- A check that ends in an `OpFault` is a next state (R172). -/
theorem ite_raiseOpFault_exists_next {P : Prop} [Decidable P] {c : Cause} {s : State} {r : Result}
    (h : ∃ t, r = .next t) : ∃ t, (if P then raiseOpFault c s else r) = .next t := by
  split
  · exact ⟨_, rfl⟩
  · exact h

theorem execCrcInit_exists_next (s : State) : ∃ t, execCrcInit s = .next t :=
  State.unlessHalted_exists_next (ite_raiseOpFault_exists_next ⟨_, rfl⟩)

theorem execCrcByte_exists_next (b : Byte) (s : State) : ∃ t, execCrcByte b s = .next t :=
  State.unlessHalted_exists_next (ite_raiseOpFault_exists_next ⟨_, rfl⟩)

theorem execRdsr_exists_next (n : BitVec 4) (s : State) : ∃ t, execRdsr n s = .next t := by
  unfold execRdsr
  cases s.statusReg n with
  | some v => exact ⟨_, rfl⟩
  | none => exact State.unlessHalted_exists_next ⟨_, rfl⟩

theorem execFrmOpen_exists_next (s : State) : ∃ t, execFrmOpen s = .next t :=
  State.unlessHalted_exists_next (ite_raiseOpFault_exists_next (ite_raiseOpFault_exists_next ⟨_, rfl⟩))

theorem execFrmData_exists_next (b : Byte) (s : State) : ∃ t, execFrmData b s = .next t :=
  State.unlessHalted_exists_next (ite_raiseOpFault_exists_next (ite_raiseOpFault_exists_next ⟨_, rfl⟩))

theorem execFrmClose_exists_next (s : State) : ∃ t, execFrmClose s = .next t :=
  State.unlessHalted_exists_next (ite_raiseOpFault_exists_next (ite_raiseOpFault_exists_next ⟨_, rfl⟩))

theorem execEncMouse_exists_next (m : MouseSnapshot) (s : State) : ∃ t, execEncMouse m s = .next t :=
  State.unlessHalted_exists_next ⟨_, rfl⟩

theorem execEncGpad_exists_next (g : GamepadSnapshot) (s : State) : ∃ t, execEncGpad g s = .next t :=
  State.unlessHalted_exists_next ⟨_, rfl⟩

theorem execSend_exists_next (s : State) : ∃ t, execSend s = .next t := by
  refine State.unlessHalted_exists_next (ite_raiseOpFault_exists_next (ite_raiseOpFault_exists_next ?_))
  cases s.mode
  · exact ⟨_, rfl⟩
  · exact ⟨_, rfl⟩

theorem illegalCode_exists_next (s : State) : ∃ t, illegalCode s = .next t :=
  State.unlessHalted_exists_next ⟨_, rfl⟩

/-- Every instruction has a meaning in every state: no arm of `exec` faults or refuses. -/
theorem exec_exists_next (i : Instr) (s : State) : ∃ t, exec i s = .next t := by
  cases i with
  | crcInit => exact execCrcInit_exists_next s
  | crcByte b => exact execCrcByte_exists_next b s
  | rdsr n => exact execRdsr_exists_next n s
  | frmOpen => exact execFrmOpen_exists_next s
  | frmData b => exact execFrmData_exists_next b s
  | frmClose => exact execFrmClose_exists_next s
  | encMouse m => exact execEncMouse_exists_next m s
  | encGpad g => exact execEncGpad_exists_next g s
  | send => exact execSend_exists_next s
  | reserved0 | reserved7 | reservedB | reservedC | reservedD | reservedE | reservedF =>
    exact illegalCode_exists_next s
  | mouseReport _ | gamepadReport _ | symEnd | symLit _ | symEend | symEesc => exact ⟨_, rfl⟩

/-! ### Each input answers a next state -/

theorem pinsMoment_exists_next (p : Pins) (s : State) : ∃ t, pinsMoment p s = .next t := by
  unfold pinsMoment
  split
  · exact ⟨_, rfl⟩
  · split
    · exact ⟨_, rfl⟩
    · split
      · exact exec_exists_next _ s
      · exact ⟨s, rfl⟩

theorem wireMoment_exists_next (bytes : List Byte) (s : State) : ∃ t, wireMoment bytes s = .next t := by
  unfold wireMoment
  split
  · exact exec_exists_next _ _
  · cases bytes with
    | nil => exact ⟨s, rfl⟩
    | cons b rest => exact ⟨_, rfl⟩

theorem payloadMoment_exists_next (bytes : List Byte) (s : State) : ∃ t, payloadMoment bytes s = .next t := by
  unfold payloadMoment
  split
  · exact exec_exists_next _ s
  · exact ⟨s, rfl⟩

/-- With no reset, no command and nothing on offer, a moment of the pins changes nothing (R179). -/
theorem pinsMoment_of_idle {p : Pins} {s : State} (hrst : p.rst = false) (hcmd : p.cmdValid = false)
    (hoffer : s.offer = []) : pinsMoment p s = .next s := by
  simp [pinsMoment, State.outValid, hrst, hcmd, hoffer]

/-! ### A step, by its input -/

theorem step_of_no_input {s : State} (h : s.inputs = []) : step s = .next s := by
  simp only [step, h]

theorem step_of_pins {s : State} {p : Pins} {rest : List Input} (h : s.inputs = .pins p :: rest) :
    step s = pinsMoment p { s with inputs := rest } := by
  simp only [step, h]

theorem step_of_wire {s : State} {bytes : List Byte} {rest : List Input} (h : s.inputs = .wire bytes :: rest) :
    step s = wireMoment bytes { s with inputs := rest } := by
  simp only [step, h]

theorem step_of_payload {s : State} {bytes : List Byte} {rest : List Input}
    (h : s.inputs = .payload bytes :: rest) : step s = payloadMoment bytes { s with inputs := rest } := by
  simp only [step, h]

/-- `step` is total: no fault and no refusal ends a run (R11). -/
theorem step_exists_next (s : State) : ∃ t, step s = .next t := by
  cases h : s.inputs with
  | nil => exact ⟨s, step_of_no_input h⟩
  | cons input rest =>
    cases input with
    | pins p => rw [step_of_pins h]; exact pinsMoment_exists_next p _
    | wire bytes => rw [step_of_wire h]; exact wireMoment_exists_next bytes _
    | payload bytes => rw [step_of_payload h]; exact payloadMoment_exists_next bytes _

/-- Settles O47: totality by the kind of input and, where an instruction runs, by its constructor; the two idle clauses
from `step` with no input and from `pinsMoment_of_idle`. -/
theorem stepAlwaysAnswersNext : Obligations.StepAlwaysAnswersNext := by
  refine ⟨step_exists_next, fun _ => step_of_no_input, ?_⟩
  intro s p rest hin hrst hcmd hoffer
  rw [step_of_pins hin]
  exact pinsMoment_of_idle hrst hcmd hoffer

end Sys2Proof.Machine
end

/-! The state of 10_state.md: the fields of the status registers (R29 to R31), the reset state (R28, R37, R39), the
configuration that only a reset can change (R24, R39), and the invariants of R39 with the bound of 20_memory.md R46. -/

namespace Sys2Proof.Machine

/-! ### Bits of the status registers -/

/-- A one-bit field has its bit at 0 and zeros above. -/
theorem getLsbD_of_one_bit (v : BitVec 1) (k : Nat) : v.getLsbD k = (decide (k = 0) && v.getLsbD 0) := by
  cases k with
  | zero => rfl
  | succ k => simp [BitVec.getLsbD_of_ge]

theorem getLsbD_bit8 (b : Bool) (k : Nat) : (bit8 b).getLsbD k = (decide (k = 0) && b) := by
  rw [bit8, BitVec.getLsbD_setWidth, getLsbD_of_one_bit]
  cases k <;> cases b <;> simp

theorem Mode.getLsbD_code (m : Mode) (k : Nat) : m.code.getLsbD k = (decide (k = 0) && m == .dgram) := by
  rw [getLsbD_of_one_bit]
  cases m <;> rfl

theorem Phase.getLsbD_code (ph : Phase) (k : Nat) : ph.code.getLsbD k = (decide (k = 0) && ph == .opened) := by
  rw [getLsbD_of_one_bit]
  cases ph <;> rfl

/-- The code of `RLEN` is the number of bytes it stands for: 12 and 13 fit in four bits (R25). -/
theorem ReportLen.toNat_code (n : ReportLen) : n.code.toNat = n.toNat := by
  cases n <;> rfl

/-- The `ECAUSE` register's low three bits are the code it widens (R31). -/
theorem Cause.extractLsb'_code (c : Cause) : (c.code.setWidth 8).extractLsb' 0 3 = c.code := by
  cases c <;> rfl

/-- Every bit of `CFG` (R29). -/
theorem State.getLsbD_cfgWord (s : State) (k : Nat) :
    s.cfgWord.getLsbD k = (decide (k = 0) && s.mode == .dgram) := by
  rw [State.cfgWord, BitVec.getLsbD_setWidth, Mode.getLsbD_code]
  cases k <;> simp

/-- Every bit of `STATUS`: `ERR` at 0, `PH` at 1, `RLEN` from 4 up (R30). -/
theorem State.getLsbD_statusWord (s : State) (k : Nat) :
    s.statusWord.getLsbD k
      = ((decide (k = 0) && s.err) || (decide (k = 1) && s.ph == .opened)
          || (decide (4 ≤ k) && s.rlen.code.getLsbD (k - 4))) := by
  simp only [State.statusWord, BitVec.getLsbD_or, BitVec.getLsbD_shiftLeft, BitVec.getLsbD_setWidth, getLsbD_bit8,
    Phase.getLsbD_code]
  by_cases hk : k < 8
  · interval_cases k <;> simp
  · have hr : s.rlen.code.getLsbD (k - 4) = false := BitVec.getLsbD_of_ge _ _ (by omega)
    have h0 : k ≠ 0 := by omega
    have h1 : k ≠ 1 := by omega
    simp [hk, hr, h0, h1]

/-- Bits 7:4 of `STATUS` are the code of `RLEN`: `ERR` and `PH` lie below them (R30). -/
theorem State.statusWord_rlen (s : State) : s.statusWord.extractLsb' 4 4 = s.rlen.code := by
  apply BitVec.eq_of_getLsbD_eq
  intro i hi
  have h1 : 4 + i ≠ 1 := by omega
  rw [BitVec.getLsbD_extractLsb', State.getLsbD_statusWord]
  simp [hi, h1]

/-- Settles O35: each register is read bit by bit, its fields being placed apart from each other. -/
theorem statusRegisterFields : Obligations.StatusRegisterFields := by
  intro s
  refine ⟨?_, fun k hk => ?_, ?_, ?_, ?_, ?_, ?_, ?_, fun k hk => ?_, fun p hp => ?_⟩
  · simp only [State.getLsbD_cfgWord, decide_true, Bool.true_and]
  · rw [State.getLsbD_cfgWord, decide_eq_false (by omega), Bool.false_and]
  · rw [State.getLsbD_statusWord]
    simp [State.err]
  · rw [State.getLsbD_statusWord]
    simp
  · rw [State.getLsbD_statusWord]
    simp
  · rw [State.getLsbD_statusWord]
    simp
  · rw [State.statusWord_rlen, ReportLen.toNat_code]
  · exact s.ecause.extractLsb'_code
  · simp [State.ecauseWord, BitVec.getLsbD_of_ge _ _ hk]
  · simp [State.errPin, State.err, hp]

/-! ### The reset state -/

/-- A reset is the start of a run in everything but what has left the block and what lies outside it (R37, R190;
notes/assumptions/7.md, notes/assumptions/9.md). -/
theorem State.resetTo_eq_resetWith (u : State) (m : Mode) :
    u.resetTo m
      = { State.resetWith m u.axisInW with out := u.out, results := u.results, rx := u.rx, inputs := u.inputs } :=
  rfl

/-- The status registers after reset (R28): `CFG` is the strap's code, `CRCSUM` is 0 because `CRC` is the value it is
finalised with, `RBV` is zeros. -/
theorem State.statusReg_resetWith (m : Mode) (axisInW : Nat) :
    let s := State.resetWith m axisInW
    s.statusReg 0 = some (m.code.setWidth 104) ∧ s.statusReg 1 = some 0x00 ∧ s.statusReg 2 = some 0x00 ∧
      s.statusReg 3 = some 0x00000000 ∧ s.statusReg 4 = some 0xFFFFFFFF ∧ s.statusReg 5 = some 0 := by
  have hstatus : (State.resetWith m axisInW).statusWord = 0#8 := by
    simp [State.statusWord, State.err, State.resetWith, bit8, Phase.code, ReportLen.code, ReportLen.toNat]
  refine ⟨?_, ?_, ?_, ?_, ?_, ?_⟩
  · cases m <;> rfl
  · simp [State.statusReg, hstatus]
  · rfl
  · simp [State.statusReg, State.crcSum, State.resetWith]
  · rfl
  · rfl

/-- Settles O44: the elements are those `State.resetWith` writes, and the registers are views of them. -/
theorem resetStateIsTheSpecs : Obligations.ResetStateIsTheSpecs := by
  intro m axisInW
  obtain ⟨hcfg, hstatus, hecause, hcrcsum, hcrcacc, hrbv⟩ := State.statusReg_resetWith m axisInW
  refine ⟨State.resetWith m axisInW, rfl, rfl, rfl, rfl, rfl, rfl, rfl, rfl, rfl,
    hcfg, hstatus, hecause, hcrcsum, hcrcacc, hrbv, ?_⟩
  rintro u rfl
  exact u.resetTo_eq_resetWith m

/-- The invariants after a reset: `RB` is zeros, the framer IDLE, nothing on offer. -/
theorem State.resetTo_inv (s : State) (m : Mode) (haxis : 10 ≤ s.axisInW) : (s.resetTo m).Inv where
  buffer := rfl
  dgramIdle := fun _ => rfl
  offerBound := by simp
  axisWidth := haxis

/-- The start of a run is a fixed point of reset, so it has what every reset state has. -/
theorem State.resetWith_inv (m : Mode) {axisInW : Nat} (haxis : 10 ≤ axisInW) : (State.resetWith m axisInW).Inv :=
  (State.resetWith m axisInW).resetTo_inv m haxis

/-- Settles O52, by `State.resetTo_inv` for each of the three kinds of reset state. -/
theorem resetMeetsTheInvariant : Obligations.ResetMeetsTheInvariant :=
  ⟨fun m _ haxis => State.resetWith_inv m haxis, State.resetWith_inv _ (by decide), State.resetTo_inv⟩

/-! ### The configuration -/

/-- No operation of the command port writes `MODE` or `AXIS_IN_W` (R24, R39). -/
theorem exec_command_config {i : Instr} {s t : State} (hc : i.isCommand = true) (h : exec i s = .next t) :
    t.mode = s.mode ∧ t.axisInW = s.axisInW := by
  rcases exec_command_cases hc h with ⟨-, rfl⟩ | ⟨-, c, -, rfl⟩ | ⟨v, rfl⟩ | ⟨-, crc, ph, rb, rlen, bytes, rfl⟩
  · exact ⟨rfl, rfl⟩
  · exact ⟨rfl, rfl⟩
  · exact ⟨rfl, rfl⟩
  · exact ⟨rfl, rfl⟩

/-- A moment of the pins keeps `AXIS_IN_W`, and changes `MODE` at reset alone (R190). -/
theorem pinsMoment_config {p : Pins} {s t : State} (h : pinsMoment p s = .next t) :
    t.axisInW = s.axisInW ∧ (t.mode = s.mode ∨ p.rst = true ∧ t.mode = p.modeStrap) := by
  rcases pinsMoment_cases h with ⟨hrst, rfl⟩ | ⟨-, e, es, -, rfl⟩ | ⟨-, -, -, hexec⟩ | ⟨-, -, -, rfl⟩
  · exact ⟨rfl, .inr ⟨hrst, rfl⟩⟩
  · split
    · exact ⟨rfl, .inl rfl⟩
    · exact ⟨rfl, .inl rfl⟩
  · obtain ⟨hmode, haxis⟩ := exec_command_config (decodeCommand_isCommand _ _) hexec
    exact ⟨haxis, .inl hmode⟩
  · exact ⟨rfl, .inl rfl⟩

/-- Outside reset the strap is not looked at (R190, U13). -/
theorem pinsMoment_strap {p : Pins} (hrst : p.rst = false) (m : Mode) (s : State) :
    pinsMoment { p with modeStrap := m } s = pinsMoment p s := by
  simp [pinsMoment, State.outValid, hrst]

/-- Settles O49: what a step does to the configuration by the kind of input, and the strap by `pinsMoment_strap`. -/
theorem modeChangesOnlyAtReset : Obligations.ModeChangesOnlyAtReset := by
  constructor
  · intro s t h
    rcases step_cases h with ⟨-, rfl⟩ | ⟨p, rest, hin, hpins⟩ | ⟨_, _, -, ht⟩
    · exact ⟨rfl, .inl rfl⟩
    · obtain ⟨haxis, hmode⟩ := pinsMoment_config hpins
      exact ⟨haxis, hmode.imp_right fun ⟨hrst, hstrap⟩ => ⟨p, rest, hin, hrst, hstrap⟩⟩
    · rw [ht]
      exact ⟨rfl, .inl rfl⟩
  · intro s p rest m hrst
    rw [step_of_pins (p := { p with modeStrap := m }) rfl, step_of_pins (p := p) rfl]
    exact pinsMoment_strap hrst m _

/-! ### How many bytes an operation emits -/

theorem esc_length_le (b : Byte) : (esc b).length ≤ 2 := by
  rcases esc_cases b with ⟨-, h⟩ | ⟨-, h⟩ | ⟨-, -, h⟩ <;> simp [h]

/-- Stuffing at most doubles a byte string (R122). -/
theorem escaped_length_le (bs : List Byte) : (escaped bs).length ≤ 2 * bs.length := by
  induction bs with
  | nil => simp
  | cons b bs ih =>
    have hb := esc_length_le b
    simp only [escaped_cons, List.length_append, List.length_cons]
    omega

/-- The stuffed checksum is at most eight bytes. -/
theorem escaped_le32_length_le (v : Word32) : (escaped (le32 v)).length ≤ 8 :=
  escaped_length_le (le32 v)

/-- A frame is at most the payload twice, eight bytes of checksum and two ENDs (R123, R46). -/
theorem frame_length_le (p : List Byte) : (frame p).length ≤ 2 * p.length + 10 := by
  have hp := escaped_length_le p
  have hc := escaped_le32_length_le (crc32 p)
  simp only [frame, frameWith, List.length_append, List.length_singleton]
  omega

theorem report_length_le (s : State) : s.report.length ≤ 13 := by
  rw [report_length]
  cases s.rlen <;> decide

/-! ### The updates that keep the invariants -/

/-- The buffer after `ENC.MOUSE` is the report (R84). -/
theorem rbOf_mouseReport_toList (m : MouseSnapshot) : (rbOf (mouseReport m)).toList = mouseReport m := rfl

/-- The buffer after `ENC.GPAD` is the report and a zero byte (R91). -/
theorem rbOf_gamepadReport_toList (g : GamepadSnapshot) :
    (rbOf (gamepadReport g)).toList = gamepadReport g ++ [0#8] := rfl

section
variable {s : State}

/-- The invariants say nothing of what is outside the block: OUT, the results, the receiver, the inputs; and nothing
of `ECAUSE`. -/
theorem State.Inv.of_block_eq {t : State} (h : s.Inv) (hrb : t.rb = s.rb) (hrlen : t.rlen = s.rlen)
    (hmode : t.mode = s.mode) (hph : t.ph = s.ph) (hoffer : t.offer = s.offer) (haxis : t.axisInW = s.axisInW) :
    t.Inv where
  buffer := by
    unfold State.bufferHoldsReport
    rw [hrb, hrlen]
    exact h.buffer
  dgramIdle := by
    rw [hmode, hph]
    exact h.dgramIdle
  offerBound := by
    rw [hoffer]
    exact h.offerBound
  axisWidth := by
    rw [haxis]
    exact h.axisWidth

theorem State.Inv.opFault (h : s.Inv) (c : Cause) : (s.opFault c).Inv :=
  h.of_block_eq rfl rfl rfl rfl rfl rfl

theorem State.Inv.result (h : s.Inv) (v : ResWord) : (s.result v).Inv :=
  h.of_block_eq rfl rfl rfl rfl rfl rfl

theorem State.Inv.withCrc (h : s.Inv) (crc : Word32) : ({ s with crc := crc } : State).Inv :=
  h.of_block_eq rfl rfl rfl rfl rfl rfl

theorem State.Inv.withReceiver (h : s.Inv) (rx : Receiver) (inputs : List Input) :
    ({ s with rx := rx, inputs := inputs } : State).Inv :=
  h.of_block_eq rfl rfl rfl rfl rfl rfl

/-- The framer and the sink's side may change within their bounds. -/
theorem State.Inv.withFramer (h : s.Inv) (crc : Word32) (out : List OutByte) {ph : Phase} {offer : List OutByte}
    (hph : s.mode = .dgram → ph = .idle) (hoffer : offer.length ≤ 36) :
    ({ s with crc := crc, ph := ph, out := out, offer := offer } : State).Inv where
  buffer := h.buffer
  dgramIdle := hph
  offerBound := hoffer
  axisWidth := h.axisWidth

/-- A mouse report may be loaded into the buffer at any time. -/
theorem State.Inv.withMouseReport (h : s.Inv) (m : MouseSnapshot) :
    ({ s with rb := rbOf (mouseReport m), rlen := .mouse } : State).Inv where
  buffer := ⟨m, rbOf_mouseReport_toList m⟩
  dgramIdle := h.dgramIdle
  offerBound := h.offerBound
  axisWidth := h.axisWidth

/-- A gamepad report may be loaded into the buffer at any time. -/
theorem State.Inv.withGamepadReport (h : s.Inv) (g : GamepadSnapshot) :
    ({ s with rb := rbOf (gamepadReport g), rlen := .gpad } : State).Inv where
  buffer := ⟨g, rbOf_gamepadReport_toList g⟩
  dgramIdle := h.dgramIdle
  offerBound := h.offerBound
  axisWidth := h.axisWidth

end

/-! ### Each operation keeps the invariants

An operation is accepted only when nothing is on offer (R46, R51), so the bytes it emits are all there are. -/

section
variable {s t : State}

theorem execCrcInit_keeps_inv (hs : s.Inv) (h : execCrcInit s = .next t) : t.Inv := by
  rcases execCrcInit_cases h with ⟨-, rfl⟩ | ⟨-, -, rfl⟩ | ⟨-, -, rfl⟩
  · exact hs
  · exact hs.opFault _
  · exact hs.withCrc _

theorem execCrcByte_keeps_inv {b : Byte} (hs : s.Inv) (h : execCrcByte b s = .next t) : t.Inv := by
  rcases execCrcByte_cases h with ⟨-, rfl⟩ | ⟨-, -, rfl⟩ | ⟨-, -, rfl⟩
  · exact hs
  · exact hs.opFault _
  · exact hs.withCrc _

theorem execRdsr_keeps_inv {n : BitVec 4} (hs : s.Inv) (h : execRdsr n s = .next t) : t.Inv := by
  rcases execRdsr_cases h with ⟨v, -, rfl⟩ | ⟨-, -, rfl⟩ | ⟨-, -, rfl⟩
  · exact hs.result v
  · exact hs
  · exact hs.opFault _

theorem illegalCode_keeps_inv (hs : s.Inv) (h : illegalCode s = .next t) : t.Inv := by
  rcases illegalCode_cases h with ⟨-, rfl⟩ | ⟨-, rfl⟩
  · exact hs
  · exact hs.opFault _

theorem execEncMouse_keeps_inv {m : MouseSnapshot} (hs : s.Inv) (h : execEncMouse m s = .next t) : t.Inv := by
  rcases execEncMouse_cases h with ⟨-, rfl⟩ | ⟨-, rfl⟩
  · exact hs
  · exact hs.withMouseReport m

theorem execEncGpad_keeps_inv {g : GamepadSnapshot} (hs : s.Inv) (h : execEncGpad g s = .next t) : t.Inv := by
  rcases execEncGpad_cases h with ⟨-, rfl⟩ | ⟨-, rfl⟩
  · exact hs
  · exact hs.withGamepadReport g

/-- One END; and `PH` becomes OPEN in STREAM mode only. -/
theorem execFrmOpen_keeps_inv (hs : s.Inv) (ho : s.offer = []) (h : execFrmOpen s = .next t) : t.Inv := by
  rcases execFrmOpen_cases h with ⟨-, rfl⟩ | ⟨-, -, rfl⟩ | ⟨-, -, -, rfl⟩ | ⟨-, hmode, -, rfl⟩
  · exact hs
  · exact hs.opFault _
  · exact hs.opFault _
  · exact hs.withFramer _ _ (by simp [hmode]) (by simp [ho])

/-- At most two bytes. -/
theorem execFrmData_keeps_inv {b : Byte} (hs : s.Inv) (ho : s.offer = []) (h : execFrmData b s = .next t) :
    t.Inv := by
  rcases execFrmData_cases h with ⟨-, rfl⟩ | ⟨-, -, rfl⟩ | ⟨-, -, -, rfl⟩ | ⟨-, -, -, rfl⟩
  · exact hs
  · exact hs.opFault _
  · exact hs.opFault _
  · have hb := esc_length_le b
    exact hs.withFramer _ _ hs.dgramIdle (by simp [ho]; omega)

/-- The stuffed checksum and an END: at most nine bytes. -/
theorem execFrmClose_keeps_inv (hs : s.Inv) (ho : s.offer = []) (h : execFrmClose s = .next t) : t.Inv := by
  rcases execFrmClose_cases h with ⟨-, rfl⟩ | ⟨-, -, rfl⟩ | ⟨-, -, -, rfl⟩ | ⟨-, -, -, rfl⟩
  · exact hs
  · exact hs.opFault _
  · exact hs.opFault _
  · have hc := escaped_le32_length_le (crcFinal s.crc)
    exact hs.withFramer _ _ (fun _ => rfl) (by simp [ho]; omega)

/-- The report in DGRAM mode, its frame in STREAM mode: the latter is the 36 bytes of R46. -/
theorem execSend_keeps_inv (hs : s.Inv) (ho : s.offer = []) (h : execSend s = .next t) : t.Inv := by
  have hr := report_length_le s
  rcases execSend_cases h with ⟨-, rfl⟩ | ⟨-, -, rfl⟩ | ⟨-, -, -, rfl⟩ | ⟨-, -, -, -, rfl⟩ | ⟨-, -, -, -, rfl⟩
  · exact hs
  · exact hs.opFault _
  · exact hs.opFault _
  · exact hs.withFramer _ _ hs.dgramIdle (by simp [ho]; omega)
  · have hf := frame_length_le s.report
    exact hs.withFramer _ _ hs.dgramIdle (by simp [ho]; omega)

/-- Every row of the command port keeps the invariants, when accepted with nothing on offer. -/
theorem exec_command_keeps_inv {i : Instr} (hc : i.isCommand = true) (hs : s.Inv) (ho : s.offer = [])
    (h : exec i s = .next t) : t.Inv := by
  cases i with
  | crcInit => exact execCrcInit_keeps_inv hs h
  | crcByte b => exact execCrcByte_keeps_inv hs h
  | rdsr n => exact execRdsr_keeps_inv hs h
  | frmOpen => exact execFrmOpen_keeps_inv hs ho h
  | frmData b => exact execFrmData_keeps_inv hs ho h
  | frmClose => exact execFrmClose_keeps_inv hs ho h
  | encMouse m => exact execEncMouse_keeps_inv hs h
  | encGpad g => exact execEncGpad_keeps_inv hs h
  | send => exact execSend_keeps_inv hs ho h
  | reserved0 | reserved7 | reservedB | reservedC | reservedD | reservedE | reservedF =>
    exact illegalCode_keeps_inv hs h
  | mouseReport _ | gamepadReport _ | symEnd | symLit _ | symEend | symEesc => simp [Instr.isCommand] at hc

/-! ### Every step keeps the invariants -/

/-- A moment of the pins keeps the invariants: reset establishes them, a transfer shortens the offer, an operation keeps
them. -/
theorem pinsMoment_keeps_inv {p : Pins} (hs : s.Inv) (h : pinsMoment p s = .next t) : t.Inv := by
  rcases pinsMoment_cases h with ⟨-, rfl⟩ | ⟨-, e, es, ho, rfl⟩ | ⟨-, ho, -, hexec⟩ | ⟨-, -, -, rfl⟩
  · exact s.resetTo_inv p.modeStrap hs.axisWidth
  · have hbound := hs.offerBound
    split
    · exact hs.withFramer _ _ hs.dgramIdle (by simp [ho] at hbound; omega)
    · exact hs
  · exact exec_command_keeps_inv (decodeCommand_isCommand _ _) hs ho hexec
  · exact hs

/-- The step lemma of R39: with `State.resetWith_inv`, the invariants hold of every reachable state. -/
theorem step_keeps_inv (hs : s.Inv) (h : step s = .next t) : t.Inv := by
  rcases step_cases h with ⟨-, rfl⟩ | ⟨p, rest, -, hpins⟩ | ⟨_, _, -, ht⟩
  · exact hs
  · exact pinsMoment_keeps_inv (hs.withReceiver s.rx rest) hpins
  · rw [ht]
    exact hs.withReceiver _ _

end

/-! ### What the invariants say of the buffer -/

theorem ReportLen.toNat_cases (n : ReportLen) : n.toNat = 0 ∨ n.toNat = 12 ∨ n.toNat = 13 := by
  cases n <;> decide

/-- The header of a mouse report in the buffer (R39 (ii)). -/
theorem State.Inv.mouse_header {s : State} (h : s.Inv) (hr : s.rlen = .mouse) :
    s.rb.toList.take 4 = [1, 0, 9, 1] := by
  have hb := h.buffer
  rw [State.bufferHoldsReport, hr] at hb
  obtain ⟨m, hm⟩ := hb
  rw [hm]
  rfl

/-- The header of a gamepad report in the buffer, its padding byte and the byte above it (R39 (ii)). -/
theorem State.Inv.gpad_bytes {s : State} (h : s.Inv) (hr : s.rlen = .gpad) :
    s.rb.toList.take 4 = [1, 2, 8, 0] ∧ s.rb[11] = 0 ∧ s.rb[12] = 0 := by
  have hb := h.buffer
  rw [State.bufferHoldsReport, hr] at hb
  obtain ⟨g, hg⟩ := hb
  have hrb : s.rb = rbOf (gamepadReport g) := Vector.toList_inj.mp hg
  rw [hrb]
  exact ⟨rfl, rfl, rfl⟩

/-- Settles O51: the invariants are kept by `step_keeps_inv`, and their clause on the buffer gives the bytes R39 names. -/
theorem everyStepKeepsTheInvariant : Obligations.EveryStepKeepsTheInvariant :=
  ⟨fun _ _ => step_keeps_inv, fun s hs => ⟨s.rlen.toNat_cases, hs.mouse_header, hs.gpad_bytes⟩⟩

end Sys2Proof.Machine

/-! The sink's side of the block, 20_memory.md: the handshake with the sink (R51), what a step does to OUT and the
results (R44), the command port while it is not ready (R50), the receiver beside the block, runs on the pins against the
operations one after the other (R46, R48), and what DGRAM mode hands over (R45). -/

namespace Sys2Proof.Machine

/-! ### A moment of the pins, by what is on the pins and on offer -/

section
variable {p : Pins} {s : State}

theorem pinsMoment_of_reset (hrst : p.rst = true) : pinsMoment p s = .next (s.resetTo p.modeStrap) := by
  simp [pinsMoment, hrst]

theorem pinsMoment_of_offer {e : OutByte} {es : List OutByte} (hrst : p.rst = false) (hoffer : s.offer = e :: es) :
    pinsMoment p s = .next (s.sinkMoment p.outReady) := by
  simp [pinsMoment, State.outValid, hrst, hoffer]

theorem pinsMoment_of_command (hrst : p.rst = false) (hoffer : s.offer = []) (hcmd : p.cmdValid = true) :
    pinsMoment p s = exec (decodeCommand s.axisInW p.cmd) s := by
  simp [pinsMoment, State.outValid, hrst, hoffer, hcmd]

/-- A ready sink takes the first pair on offer. -/
theorem State.sinkMoment_ready {e : OutByte} {es : List OutByte} (hoffer : s.offer = e :: es) :
    s.sinkMoment true = { s with out := s.out ++ [e], offer := es } := by
  simp only [State.sinkMoment, hoffer]

@[simp] theorem State.sinkMoment_not_ready (s : State) : s.sinkMoment false = s := by
  simp [State.sinkMoment]

/-- The block is not ready exactly in reset and while a byte is on offer (R46, R190). -/
theorem State.cmdReady_eq_false : s.cmdReady p = false ↔ p.rst = true ∨ ∃ e es, s.offer = e :: es := by
  cases hoffer : s.offer <;> simp [State.cmdReady, hoffer]

/-- While the block is not ready there is a reset, or a moment of the sink; the command port is not looked at (R50). -/
theorem pinsMoment_of_not_cmdReady (h : s.cmdReady p = false) :
    pinsMoment p s = .next (if p.rst then s.resetTo p.modeStrap else s.sinkMoment p.outReady) := by
  cases hrst : p.rst with
  | true => simpa using pinsMoment_of_reset hrst
  | false =>
    obtain ⟨e, es, hoffer⟩ : ∃ e es, s.offer = e :: es := by simpa [hrst] using State.cmdReady_eq_false.mp h
    simpa using pinsMoment_of_offer hrst hoffer

end

/-- Settles O46: the pins by their definitions, the step by `pinsMoment_of_offer` and what the sink does. -/
theorem sinkHandshake : Obligations.SinkHandshake := by
  intro s p rest e es hin hrst hoffer
  have hstep : step s = .next (State.sinkMoment { s with inputs := rest } p.outReady) := by
    rw [step_of_pins hin]
    exact pinsMoment_of_offer hrst hoffer
  refine ⟨by simp [State.outValid, hrst, hoffer], by simp [State.outPair, hrst, hoffer],
    State.cmdReady_eq_false.mpr (.inr ⟨e, es, hoffer⟩), fun hready => ?_, fun hready => ?_⟩
  · rw [hstep, hready, State.sinkMoment_ready (s := { s with inputs := rest }) hoffer]
  · rw [hstep, hready, State.sinkMoment_not_ready]

/-- Settles O50, by `pinsMoment_of_not_cmdReady`. -/
theorem unacceptedWordsDoNotMatter : Obligations.UnacceptedWordsDoNotMatter := by
  intro s p rest w v h
  rw [step_of_pins (p := { p with cmd := w, cmdValid := v }) rfl, step_of_pins (p := p) rfl]
  have hready : State.cmdReady { s with inputs := rest } p = false := h
  exact (pinsMoment_of_not_cmdReady (p := { p with cmd := w, cmdValid := v }) hready).trans
    (pinsMoment_of_not_cmdReady hready).symm

/-! ### What an operation leaves of the ports -/

section
variable {i : Instr} {s t : State}

/-- An operation hands nothing to the sink itself, and touches neither the receiver nor the inputs. -/
theorem exec_command_frame (hc : i.isCommand = true) (h : exec i s = .next t) :
    t.out = s.out ∧ t.rx = s.rx ∧ t.inputs = s.inputs := by
  obtain ⟨bytes, ht, -⟩ := exec_command_ports hc h
  exact ⟨(congrArg State.out ht :), (congrArg State.rx ht :), (congrArg State.inputs ht :)⟩

/-- An operation does the same whatever the receiver holds. -/
theorem exec_command_receiver (hc : i.isCommand = true) (h : exec i s = .next t) (r : Receiver) :
    exec i { s with rx := r } = .next { t with rx := r } := by
  obtain ⟨bytes, ht, hports⟩ := exec_command_ports hc h
  rw [ht]
  exact hports s.out s.offer r s.inputs

/-- An operation only appends to the results (R44, R142). -/
theorem exec_command_results (hc : i.isCommand = true) (h : exec i s = .next t) :
    ∃ rs, t.results = s.results ++ rs := by
  rcases exec_command_cases hc h with ⟨-, rfl⟩ | ⟨-, c, -, rfl⟩ | ⟨v, rfl⟩ | ⟨-, crc, ph, rb, rlen, bytes, rfl⟩
  · exact ⟨[], by simp⟩
  · exact ⟨[], by simp⟩
  · exact ⟨[v], rfl⟩
  · exact ⟨[], by simp⟩

end

/-! ### OUT and the results only grow -/

theorem pinsMoment_out {p : Pins} {s t : State} (h : pinsMoment p s = .next t) :
    (t.out = s.out ∨ ∃ e es, s.offer = e :: es ∧ t.out = s.out ++ [e] ∧ t.offer = es) ∧
    ∃ rs, t.results = s.results ++ rs := by
  rcases pinsMoment_cases h with ⟨-, rfl⟩ | ⟨-, e, es, hoffer, rfl⟩ | ⟨-, -, -, hexec⟩ | ⟨-, -, -, rfl⟩
  · exact ⟨.inl rfl, [], by simp⟩
  · split
    · exact ⟨.inr ⟨e, es, hoffer, rfl, rfl⟩, [], by simp⟩
    · exact ⟨.inl rfl, [], by simp⟩
  · have hc := decodeCommand_isCommand s.axisInW p.cmd
    exact ⟨.inl (exec_command_frame hc hexec).1, exec_command_results hc hexec⟩
  · exact ⟨.inl rfl, [], by simp⟩

/-- Settles O48: only a moment of the pins moves anything, by `pinsMoment_out`. -/
theorem outIsAppendOnly : Obligations.OutIsAppendOnly := by
  intro s t h
  rcases step_cases h with ⟨-, rfl⟩ | ⟨p, rest, -, hpins⟩ | ⟨_, _, -, ht⟩
  · exact ⟨.inl rfl, [], by simp⟩
  · exact pinsMoment_out (s := { s with inputs := rest }) hpins
  · rw [ht]
    exact ⟨.inl rfl, [], by simp⟩

/-! ### The block beside the receiver -/

/-- A moment of the pins leaves the receiver alone and does the same whatever the receiver holds. -/
theorem pinsMoment_receiver {p : Pins} {s t : State} (h : pinsMoment p s = .next t) :
    t.rx = s.rx ∧ ∀ r, pinsMoment p { s with rx := r } = .next { t with rx := r } := by
  rcases pinsMoment_cases h with ⟨hrst, rfl⟩ | ⟨hrst, e, es, hoffer, rfl⟩ | ⟨hrst, hoffer, hcmd, hexec⟩
    | ⟨hrst, hoffer, hcmd, rfl⟩
  · exact ⟨rfl, fun r => pinsMoment_of_reset hrst⟩
  · refine ⟨by split <;> rfl, fun r => ?_⟩
    rw [pinsMoment_of_offer (s := { s with rx := r }) hrst hoffer]
    cases p.outReady
    · simp
    · simp [State.sinkMoment_ready (s := { s with rx := r }) hoffer]
  · have hc := decodeCommand_isCommand s.axisInW p.cmd
    obtain ⟨-, hrx, -⟩ := exec_command_frame hc hexec
    refine ⟨hrx, fun r => ?_⟩
    rw [pinsMoment_of_command (s := { s with rx := r }) hrst hoffer hcmd]
    exact exec_command_receiver hc hexec r
  · exact ⟨rfl, fun r => pinsMoment_of_idle hrst hcmd hoffer⟩

/-- Settles O53: the receiver's inputs by `step_cases`, the pins by `pinsMoment_receiver`. -/
theorem blockAndReceiverDoNotInterfere : Obligations.BlockAndReceiverDoNotInterfere := by
  constructor
  · intro s t rest bytes hin h
    rcases step_cases h with ⟨-, rfl⟩ | ⟨p, rest', hpins, -⟩ | ⟨_, _, -, ht⟩
    · rfl
    · rw [hpins] at hin
      simp at hin
    · exact ht
  · intro s t p rest hin h
    rw [step_of_pins hin] at h
    obtain ⟨hrx, hall⟩ := pinsMoment_receiver h
    refine ⟨hrx, fun r => ?_⟩
    rw [step_of_pins (s := { s with rx := r }) hin]
    exact hall r

/-! ### Which bytes an operation emits -/

/-- The bytes an accepted operation may put on offer in state `s`: none, where it has none or it faults or is refused;
or those its rule names. -/
inductive Emission (s : State) : Instr → List OutByte → Prop where
  | nothing (i : Instr) : Emission s i []
  | opening : s.mode = .stream → Emission s .frmOpen [dataByte byteEnd]
  | data (b : Byte) : s.mode = .stream → Emission s (.frmData b) ((esc b).map dataByte)
  | closing : s.mode = .stream → Emission s .frmClose (withLast (escaped (le32 (crcFinal s.crc)) ++ [byteEnd]))
  | datagram : s.mode = .dgram → s.rlen ≠ .empty → Emission s .send (withLast s.report)
  | framed : s.mode = .stream → s.rlen ≠ .empty → Emission s .send (withLast (frame s.report))

section
variable {i : Instr} {s t : State}

/-- An operation that leaves the offer as it was emits nothing. -/
theorem exists_emission_of_offer_eq (h : t.offer = s.offer) :
    ∃ bytes, Emission s i bytes ∧ t.offer = s.offer ++ bytes :=
  ⟨[], .nothing i, by rw [h, List.append_nil]⟩

/-- `Emission` is what the operations do to the offer. -/
theorem exec_command_emission (hc : i.isCommand = true) (h : exec i s = .next t) :
    ∃ bytes, Emission s i bytes ∧ t.offer = s.offer ++ bytes := by
  cases i with
  | crcInit =>
    rcases execCrcInit_cases h with ⟨-, rfl⟩ | ⟨-, -, rfl⟩ | ⟨-, -, rfl⟩ <;> exact exists_emission_of_offer_eq rfl
  | crcByte b =>
    rcases execCrcByte_cases h with ⟨-, rfl⟩ | ⟨-, -, rfl⟩ | ⟨-, -, rfl⟩ <;> exact exists_emission_of_offer_eq rfl
  | rdsr n =>
    rcases execRdsr_cases h with ⟨v, -, rfl⟩ | ⟨-, -, rfl⟩ | ⟨-, -, rfl⟩ <;> exact exists_emission_of_offer_eq rfl
  | frmOpen =>
    rcases execFrmOpen_cases h with ⟨-, rfl⟩ | ⟨-, -, rfl⟩ | ⟨-, -, -, rfl⟩ | ⟨-, hmode, -, rfl⟩
    · exact exists_emission_of_offer_eq rfl
    · exact exists_emission_of_offer_eq rfl
    · exact exists_emission_of_offer_eq rfl
    · exact ⟨_, .opening hmode, rfl⟩
  | frmData b =>
    rcases execFrmData_cases h with ⟨-, rfl⟩ | ⟨-, -, rfl⟩ | ⟨-, -, -, rfl⟩ | ⟨-, hmode, -, rfl⟩
    · exact exists_emission_of_offer_eq rfl
    · exact exists_emission_of_offer_eq rfl
    · exact exists_emission_of_offer_eq rfl
    · exact ⟨_, .data b hmode, rfl⟩
  | frmClose =>
    rcases execFrmClose_cases h with ⟨-, rfl⟩ | ⟨-, -, rfl⟩ | ⟨-, -, -, rfl⟩ | ⟨-, hmode, -, rfl⟩
    · exact exists_emission_of_offer_eq rfl
    · exact exists_emission_of_offer_eq rfl
    · exact exists_emission_of_offer_eq rfl
    · exact ⟨_, .closing hmode, rfl⟩
  | encMouse m =>
    rcases execEncMouse_cases h with ⟨-, rfl⟩ | ⟨-, rfl⟩ <;> exact exists_emission_of_offer_eq rfl
  | encGpad g =>
    rcases execEncGpad_cases h with ⟨-, rfl⟩ | ⟨-, rfl⟩ <;> exact exists_emission_of_offer_eq rfl
  | send =>
    rcases execSend_cases h with ⟨-, rfl⟩ | ⟨-, -, rfl⟩ | ⟨-, -, -, rfl⟩ | ⟨-, -, hlen, hmode, rfl⟩
      | ⟨-, -, hlen, hmode, rfl⟩
    · exact exists_emission_of_offer_eq rfl
    · exact exists_emission_of_offer_eq rfl
    · exact exists_emission_of_offer_eq rfl
    · exact ⟨_, .datagram hmode hlen, rfl⟩
    · exact ⟨_, .framed hmode hlen, rfl⟩
  | reserved0 | reserved7 | reservedB | reservedC | reservedD | reservedE | reservedF =>
    rcases illegalCode_cases h with ⟨-, rfl⟩ | ⟨-, rfl⟩ <;> exact exists_emission_of_offer_eq rfl
  | mouseReport _ | gamepadReport _ | symEnd | symLit _ | symEend | symEesc => simp [Instr.isCommand] at hc

/-- At most 36 bytes, the frame of a mouse report whose every byte is stuffed (R46). -/
theorem Emission.length_le {bytes : List OutByte} (h : Emission s i bytes) : bytes.length ≤ 36 := by
  cases h with
  | nothing => simp
  | opening => simp
  | data b =>
    have hb := esc_length_le b
    simp only [List.length_map]
    omega
  | closing =>
    have hc := escaped_le32_length_le (crcFinal s.crc)
    simp only [withLast_length, List.length_append, List.length_singleton]
    omega
  | datagram =>
    have hr := report_length_le s
    simp only [withLast_length]
    omega
  | framed =>
    have hr := report_length_le s
    have hf := frame_length_le s.report
    simp only [withLast_length]
    omega

/-- Accepted with nothing on offer, an operation leaves at most 36 bytes there, whatever the state (R46). -/
theorem exec_command_offer_length_le (hc : i.isCommand = true) (hoffer : s.offer = []) (h : exec i s = .next t) :
    t.offer.length ≤ 36 := by
  obtain ⟨bytes, hemit, ht⟩ := exec_command_emission hc h
  rw [ht, hoffer]
  exact hemit.length_le

end

/-! ### Operations on the pins, to a ready sink -/

/-- The ports do not matter to a list of operations, as they do not to one. -/
theorem runOps_ports {is : List Instr} {s t : State} (hc : ∀ i ∈ is, i.isCommand = true) (h : runOps is s = .next t) :
    ∃ bytes, t = t.withPorts s.out (s.offer ++ bytes) s.rx s.inputs ∧
      ∀ o f r ins, runOps is (s.withPorts o f r ins) = .next (t.withPorts o (f ++ bytes) r ins) := by
  induction is generalizing s with
  | nil =>
    cases h
    exact ⟨[], by simp [State.withPorts], fun o f r ins => by simp [runOps, State.withPorts]⟩
  | cons i is ih =>
    obtain ⟨hi, his⟩ := List.forall_mem_cons.mp hc
    obtain ⟨u, hu⟩ := exec_exists_next i s
    simp only [runOps, hu] at h
    obtain ⟨b1, hu1, hrun1⟩ := exec_command_ports hi hu
    obtain ⟨b2, ht2, hrun2⟩ := ih his h
    refine ⟨b1 ++ b2, ?_, fun o f r ins => ?_⟩
    · rw [hu1] at ht2
      simpa [State.withPorts] using ht2
    · simp only [runOps, hrun1]
      simpa [State.withPorts] using hrun2 o (f ++ b1) r ins

/-- It makes no difference to what is emitted whether the sink takes the bytes before the operations or after them. -/
theorem runOps_drained {is : List Instr} {s t : State} (hc : ∀ i ∈ is, i.isCommand = true)
    (h : runOps is s = .next t) : ∃ t', runOps is s.drained = .next t' ∧ t'.drained = t.drained := by
  obtain ⟨bytes, ht, hrun⟩ := runOps_ports hc h
  refine ⟨_, hrun s.emitted [] s.rx s.inputs, ?_⟩
  rw [ht]
  simp [State.drained, State.emitted]

/-- After `k` moments with a ready sink and no command, the first `k` bytes on offer are on OUT (R44, R51). -/
theorem run_readyPins (m : Mode) (more : List Input) (k : Nat) {s : State}
    (hin : s.inputs = List.replicate k (readyPins m) ++ more) :
    Host.Core.run Sys2Proof.core k s
      = .next { s with out := s.out ++ s.offer.take k, offer := s.offer.drop k, inputs := more } := by
  induction k generalizing s with
  | zero =>
    simp at hin
    simp [Host.Core.run, ← hin]
  | succ k ih =>
    have hstep := step_of_pins hin
    cases hoffer : s.offer with
    | nil =>
      rw [pinsMoment_of_idle rfl rfl (by exact hoffer)] at hstep
      rw [run_succ hstep, ih rfl]
      simp [hoffer]
    | cons e es =>
      rw [pinsMoment_of_offer rfl (by exact hoffer), State.sinkMoment_ready (by exact hoffer)] at hstep
      rw [run_succ hstep, ih rfl]
      simp

/-- As many ready moments as there are bytes on offer, or more, drain the block. -/
theorem run_readyPins_drained (m : Mode) (more : List Input) {k : Nat} {s : State}
    (hin : s.inputs = List.replicate k (readyPins m) ++ more) (hlen : s.offer.length ≤ k) :
    Host.Core.run Sys2Proof.core k s = .next { s.drained with inputs := more } := by
  rw [run_readyPins m more k hin, List.take_of_length_le hlen, List.drop_eq_nil_of_le hlen]
  rfl

theorem State.drained_of_offer_nil {s : State} (h : s.offer = []) : s.drained = s := by
  rw [State.drained, State.emitted, h, List.append_nil, ← h]

/-- A word and its 36 moments are the operation and then the sink taking what it emitted (R46). -/
theorem run_command_drained {m : Mode} {w : CmdWord} {more later : List Input} {s u : State} (hoffer : s.offer = [])
    (hin : s.inputs = commandPins m w :: (List.replicate 36 (readyPins m) ++ more))
    (h : exec (decodeCommand s.axisInW w) { s with inputs := later } = .next u) :
    Host.Core.run Sys2Proof.core 37 s = .next { u.drained with inputs := more } := by
  have hc := decodeCommand_isCommand s.axisInW w
  obtain ⟨bytes, hu, hports⟩ := exec_command_ports hc h
  have hexec : step s = .next { u with inputs := List.replicate 36 (readyPins m) ++ more } := by
    rw [step_of_pins hin, pinsMoment_of_command rfl (by exact hoffer) rfl, hu]
    exact hports s.out s.offer s.rx _
  have hlen : u.offer.length ≤ 36 :=
    exec_command_offer_length_le (s := { s with inputs := later }) hc hoffer h
  exact (run_succ hexec 36).trans (run_readyPins_drained m more rfl hlen)

/-- Settles O55, by induction on the words: `run_command_drained` for the first, and `runOps_drained` for those after
it, which find its bytes on OUT. -/
theorem readySinkSeesOperationsInOrder : Obligations.ReadySinkSeesOperationsInOrder := by
  intro m ws more
  induction ws with
  | nil =>
    intro s t hoffer hin h
    cases h
    have hin : s.inputs = more := hin
    subst hin
    exact congrArg Host.Outcome.next (State.drained_of_offer_nil hoffer).symm
  | cons w ws ih =>
    intro s t hoffer hin h
    obtain ⟨u, hu⟩ := exec_exists_next (decodeCommand s.axisInW w) { s with inputs := more }
    simp only [List.map_cons, runOps, hu] at h
    have hc := decodeCommand_isCommand s.axisInW w
    obtain ⟨-, haxis⟩ := exec_command_config hc hu
    obtain ⟨-, -, hinputs⟩ := exec_command_frame hc hu
    have hfirst : Host.Core.run Sys2Proof.core 37 s = .next { u.drained with inputs := schedule m ws ++ more } :=
      run_command_drained hoffer (by simpa [schedule] using hin) hu
    obtain ⟨t', hrest, ht'⟩ := runOps_drained (by simp [decodeCommand_isCommand]) h
    rw [List.length_cons, Nat.mul_add, Nat.add_comm, run_add hfirst, ← ht']
    refine ih _ t' rfl rfl ?_
    rw [show s.axisInW = u.axisInW from haxis.symm] at hrest
    subst hinputs
    exact hrest

/-! ### DGRAM mode hands over whole reports -/

/-- A payload of one of the two report layouts (R81, R85). -/
def IsReport (r : List Byte) : Prop := (∃ m, r = mouseReport m) ∨ ∃ g, r = gamepadReport g

section
variable {i : Instr} {s t : State}

theorem State.bufferHoldsReport_congr (hrb : t.rb = s.rb) (hrlen : t.rlen = s.rlen) :
    t.bufferHoldsReport ↔ s.bufferHoldsReport := by
  simp only [State.bufferHoldsReport, hrb, hrlen]

/-- What `SEND` reads is a report, once one is present (R141). -/
theorem State.report_isReport (hbuf : s.bufferHoldsReport) (hrlen : s.rlen ≠ .empty) : IsReport s.report := by
  unfold State.bufferHoldsReport at hbuf
  unfold State.report
  cases hr : s.rlen with
  | empty => exact absurd hr hrlen
  | mouse =>
    simp only [hr] at hbuf
    obtain ⟨m, hm⟩ := hbuf
    exact .inl ⟨m, by rw [hm]; rfl⟩
  | gpad =>
    simp only [hr] at hbuf
    obtain ⟨g, hg⟩ := hbuf
    exact .inr ⟨g, by rw [hg]; rfl⟩

/-- Only the two encodings write the report buffer, with the report and its length (R84, R91). -/
theorem exec_command_buffer (hc : i.isCommand = true) (h : exec i s = .next t) :
    (t.rb = s.rb ∧ t.rlen = s.rlen)
      ∨ (∃ m, i = .encMouse m ∧ t.rb = rbOf (mouseReport m) ∧ t.rlen = .mouse)
      ∨ (∃ g, i = .encGpad g ∧ t.rb = rbOf (gamepadReport g) ∧ t.rlen = .gpad) := by
  cases i with
  | crcInit => rcases execCrcInit_cases h with ⟨-, rfl⟩ | ⟨-, -, rfl⟩ | ⟨-, -, rfl⟩ <;> exact .inl ⟨rfl, rfl⟩
  | crcByte b => rcases execCrcByte_cases h with ⟨-, rfl⟩ | ⟨-, -, rfl⟩ | ⟨-, -, rfl⟩ <;> exact .inl ⟨rfl, rfl⟩
  | rdsr n => rcases execRdsr_cases h with ⟨v, -, rfl⟩ | ⟨-, -, rfl⟩ | ⟨-, -, rfl⟩ <;> exact .inl ⟨rfl, rfl⟩
  | frmOpen =>
    rcases execFrmOpen_cases h with ⟨-, rfl⟩ | ⟨-, -, rfl⟩ | ⟨-, -, -, rfl⟩ | ⟨-, -, -, rfl⟩ <;>
      exact .inl ⟨rfl, rfl⟩
  | frmData b =>
    rcases execFrmData_cases h with ⟨-, rfl⟩ | ⟨-, -, rfl⟩ | ⟨-, -, -, rfl⟩ | ⟨-, -, -, rfl⟩ <;>
      exact .inl ⟨rfl, rfl⟩
  | frmClose =>
    rcases execFrmClose_cases h with ⟨-, rfl⟩ | ⟨-, -, rfl⟩ | ⟨-, -, -, rfl⟩ | ⟨-, -, -, rfl⟩ <;>
      exact .inl ⟨rfl, rfl⟩
  | encMouse m =>
    rcases execEncMouse_cases h with ⟨-, rfl⟩ | ⟨-, rfl⟩
    · exact .inl ⟨rfl, rfl⟩
    · exact .inr (.inl ⟨m, rfl, rfl, rfl⟩)
  | encGpad g =>
    rcases execEncGpad_cases h with ⟨-, rfl⟩ | ⟨-, rfl⟩
    · exact .inl ⟨rfl, rfl⟩
    · exact .inr (.inr ⟨g, rfl, rfl, rfl⟩)
  | send =>
    rcases execSend_cases h with ⟨-, rfl⟩ | ⟨-, -, rfl⟩ | ⟨-, -, -, rfl⟩ | ⟨-, -, -, -, rfl⟩ | ⟨-, -, -, -, rfl⟩ <;>
      exact .inl ⟨rfl, rfl⟩
  | reserved0 | reserved7 | reservedB | reservedC | reservedD | reservedE | reservedF =>
    rcases illegalCode_cases h with ⟨-, rfl⟩ | ⟨-, rfl⟩ <;> exact .inl ⟨rfl, rfl⟩
  | mouseReport _ | gamepadReport _ | symEnd | symLit _ | symEend | symEesc => simp [Instr.isCommand] at hc

theorem exec_command_keeps_buffer (hc : i.isCommand = true) (hbuf : s.bufferHoldsReport) (h : exec i s = .next t) :
    t.bufferHoldsReport := by
  rcases exec_command_buffer hc h with ⟨hrb, hrlen⟩ | ⟨m, -, hrb, hrlen⟩ | ⟨g, -, hrb, hrlen⟩
  · exact (State.bufferHoldsReport_congr hrb hrlen).mpr hbuf
  · rw [State.bufferHoldsReport, hrlen, hrb]
    exact ⟨m, rbOf_mouseReport_toList m⟩
  · rw [State.bufferHoldsReport, hrlen, hrb]
    exact ⟨g, rbOf_gamepadReport_toList g⟩

/-- In DGRAM mode the framer is silent, so an operation emits nothing or, as `SEND`, one report with its `last`
(R140, R141). -/
theorem Emission.of_dgram {bytes : List OutByte} (h : Emission s i bytes) (hmode : s.mode = .dgram)
    (hbuf : s.bufferHoldsReport) :
    ∃ rs : List (List Byte), bytes = (rs.map withLast).flatten ∧ ∀ r ∈ rs, IsReport r := by
  cases h with
  | nothing => exact ⟨[], rfl, by simp⟩
  | datagram _ hrlen => exact ⟨[s.report], by simp, by simpa using State.report_isReport hbuf hrlen⟩
  | opening hstream | data _ hstream | closing hstream | framed hstream => simp [hmode] at hstream

/-- What an operation adds to OUT is what it puts on offer. -/
theorem exec_command_emitted (hc : i.isCommand = true) (h : exec i s = .next t) :
    ∃ bytes, Emission s i bytes ∧ t.emitted = s.emitted ++ bytes := by
  obtain ⟨bytes, hemit, hoffer⟩ := exec_command_emission hc h
  obtain ⟨hout, -, -⟩ := exec_command_frame hc h
  exact ⟨bytes, hemit, by rw [State.emitted, State.emitted, hout, hoffer, List.append_assoc]⟩

end

/-- Settles O58, by induction on the operations: the mode and `bufferHoldsReport` are kept by each, and each adds the
whole reports of `Emission.of_dgram`. -/
theorem datagramRunsEmitWholeReports : Obligations.DatagramRunsEmitWholeReports := by
  intro is
  induction is with
  | nil =>
    intro s t _ _ _ h
    cases h
    exact ⟨[], by simp, by simp⟩
  | cons i is ih =>
    intro s t hc hmode hbuf h
    obtain ⟨hi, his⟩ := List.forall_mem_cons.mp hc
    obtain ⟨u, hu⟩ := exec_exists_next i s
    simp only [runOps, hu] at h
    obtain ⟨bytes, hemit, hfirst⟩ := exec_command_emitted hi hu
    obtain ⟨rs₁, hbytes, hrs₁⟩ := hemit.of_dgram hmode hbuf
    have humode : u.mode = .dgram := (exec_command_config hi hu).1.trans hmode
    obtain ⟨rs₂, hrest, hrs₂⟩ := ih u t his humode (exec_command_keeps_buffer hi hbuf hu) h
    refine ⟨rs₁ ++ rs₂, by simp [hrest, hfirst, hbytes], fun r hr => ?_⟩
    exact (List.mem_append.mp hr).elim (hrs₁ r) (hrs₂ r)

end Sys2Proof.Machine

/-! The command words of 30_encoding.md: fields read from a word and placed in one (R61 to R65), the sixteen operation
codes (R60, R69), and the two directions of the round trip, in which the bits above a format's significant ones do not
take part (R66). -/

namespace Sys2Proof

/-! ### A field read from a placed field -/

/-- The bits of a placed field lie in its own places. -/
theorem testBit_place_of_disjoint {n lo i : Nat} (v : BitVec n) (h : i < lo ∨ lo + n ≤ i) :
    (place lo v).testBit i = false := by
  rw [testBit_place]
  rcases h with h | h
  · simp [Nat.not_le.mpr h]
  · simp [BitVec.getLsbD_of_ge v (i - lo) (by omega)]

theorem field_or (n lo : Nat) (a b : CmdWord) : field n lo (a ||| b) = field n lo a ||| field n lo b := by
  apply BitVec.eq_of_getLsbD_eq
  simp [getLsbD_field, Bool.and_or_distrib_left]

theorem field_place {n : Nat} (lo : Nat) (v : BitVec n) : field n lo (place lo v) = v := by
  apply BitVec.eq_of_getLsbD_eq
  intro i hi
  rw [getLsbD_field, testBit_place]
  simp [hi]

/-- Fields in different places do not see each other. -/
theorem field_place_of_disjoint {n m lo lo' : Nat} (v : BitVec m) (h : lo' + m ≤ lo ∨ lo + n ≤ lo') :
    field n lo (place lo' v) = 0#n := by
  apply BitVec.eq_of_getLsbD_eq
  intro i hi
  rw [getLsbD_field, testBit_place_of_disjoint v (by omega)]
  simp

theorem field_placeBool_of_disjoint {n lo lo' : Nat} (b : Bool) (h : lo' < lo ∨ lo + n ≤ lo') :
    field n lo (placeBool lo' b) = 0#n :=
  field_place_of_disjoint _ (by omega)

/-! ### Operand fields of formats M and G (R64, R65) -/

theorem mouseFields_mouseWord (m : MouseSnapshot) : mouseFields (mouseWord m) = m := by
  simp (disch := omega) [mouseFields, mouseWord, field_or, field_place, field_place_of_disjoint,
    field_placeBool_of_disjoint, testBit_place_of_disjoint, testBit_placeBool]

theorem gamepadFields_gamepadWord {axisInW : Nat} {g : GamepadSnapshot} (hw : 1 ≤ axisInW)
    (hg : (Instr.encGpad g).wf axisInW = true) : gamepadFields axisInW (gamepadWord axisInW g) = g := by
  simp only [Instr.wf, Bool.and_eq_true] at hg
  obtain ⟨⟨⟨hlx, hly⟩, hrx⟩, hry⟩ := hg
  simp (disch := omega) [gamepadFields, gamepadWord, axisField, placeAxis, field_or, field_place,
    field_place_of_disjoint, field_placeBool_of_disjoint, testBit_place_of_disjoint, testBit_placeBool,
    toInt_ofInt_of_fits hw, -BitVec.toInt_ofInt]

/-! ### The sixteen operation codes -/

/-- The row of the command port that an operation code stands for, with the operands `w` has for it (R60, R69). -/
def commandOfCode (axisInW : Nat) (w : CmdWord) : Nat → Instr
  | 0x0 => .reserved0
  | 0x1 => .crcInit
  | 0x2 => .crcByte (field 8 4 w)
  | 0x3 => .rdsr (field 4 4 w)
  | 0x4 => .frmOpen
  | 0x5 => .frmData (field 8 4 w)
  | 0x6 => .frmClose
  | 0x7 => .reserved7
  | 0x8 => .encMouse (mouseFields w)
  | 0x9 => .encGpad (gamepadFields axisInW w)
  | 0xA => .send
  | 0xB => .reservedB
  | 0xC => .reservedC
  | 0xD => .reservedD
  | 0xE => .reservedE
  | _ => .reservedF

/-- The decoder looks at `cmd[3:0]` as a number (R60). -/
theorem decodeCommand_of_code (axisInW : Nat) {w : CmdWord} {c : Nat} (h : w % 16 = c) :
    decodeCommand axisInW w = commandOfCode axisInW w c := by
  obtain ⟨h0, h1, h2, h3⟩ := opcode_bits h
  unfold decodeCommand
  rw [h0, h1, h2, h3]
  have hc : c < 16 := h ▸ Nat.mod_lt w (by decide)
  interval_cases c <;> rfl

/-- The operation code is the field at 3:0. -/
theorem code_of_field {w : CmdWord} {c : BitVec 4} (h : field 4 0 w = c) : w % 16 = c.toNat := by
  rw [← h, field, BitVec.toNat_ofNat, Nat.shiftRight_zero]

/-! ### The decoder inverts the encoder -/

theorem code_operandWord {n : Nat} (c : BitVec 4) (v : BitVec n) : (place 0 c ||| place 4 v) % 16 = c.toNat :=
  code_of_field (by rw [field_or, field_place, field_place_of_disjoint v (.inr (by decide)), BitVec.or_zero])

theorem field_operandWord {n : Nat} (c : BitVec 4) (v : BitVec n) :
    field n 4 (place 0 c ||| place 4 v) = v := by
  rw [field_or, field_place, field_place_of_disjoint c (.inl (by decide)), BitVec.zero_or]

theorem code_mouseWord (m : MouseSnapshot) : mouseWord m % 16 = 0x8 :=
  code_of_field (c := 0x8#4) (by
    simp (disch := omega) [mouseWord, field_or, field_place, field_place_of_disjoint, field_placeBool_of_disjoint])

theorem code_gamepadWord (axisInW : Nat) (g : GamepadSnapshot) : gamepadWord axisInW g % 16 = 0x9 :=
  code_of_field (c := 0x9#4) (by
    simp (disch := omega) [gamepadWord, placeAxis, field_or, field_place, field_place_of_disjoint,
      field_placeBool_of_disjoint])

/-- A well-formed command decodes from its own encoding. -/
theorem decodeCommand_encode {axisInW : Nat} {i : Instr} {cw : CmdWord} (hw : 1 ≤ axisInW)
    (hi : i.wf axisInW = true) (h : encode axisInW i = .command cw) : decodeCommand axisInW cw = i := by
  cases i with
  | crcInit | frmOpen | frmClose | send | reserved0 | reserved7 | reservedB | reservedC | reservedD | reservedE
  | reservedF =>
    cases h
    exact decodeCommand_of_code axisInW rfl
  | crcByte b =>
    cases h
    exact (decodeCommand_of_code axisInW (code_operandWord _ b)).trans (congrArg Instr.crcByte (field_operandWord _ b))
  | rdsr n =>
    cases h
    exact (decodeCommand_of_code axisInW (code_operandWord _ n)).trans (congrArg Instr.rdsr (field_operandWord _ n))
  | frmData b =>
    cases h
    exact (decodeCommand_of_code axisInW (code_operandWord _ b)).trans (congrArg Instr.frmData (field_operandWord _ b))
  | encMouse m =>
    cases h
    exact (decodeCommand_of_code axisInW (code_mouseWord m)).trans (congrArg Instr.encMouse (mouseFields_mouseWord m))
  | encGpad g =>
    cases h
    exact (decodeCommand_of_code axisInW (code_gamepadWord axisInW g)).trans
      (congrArg Instr.encGpad (gamepadFields_gamepadWord hw hi))
  | mouseReport _ | gamepadReport _ | symEnd | symLit _ | symEend | symEesc => cases h

/-! ### Only the significant bits take part -/

/-- A field depends on its own bits alone. -/
theorem field_congr {n lo hi : Nat} {w w' : CmdWord} (h : ∀ k, k < hi → w.testBit k = w'.testBit k)
    (hle : lo + n ≤ hi) : field n lo w = field n lo w' := by
  apply BitVec.eq_of_getLsbD_eq
  intro i hi'
  rw [getLsbD_field, getLsbD_field, h (lo + i) (by omega)]

theorem mouseFields_congr {w w' : CmdWord} (h : ∀ k, k < 71 → w.testBit k = w'.testBit k) :
    mouseFields w = mouseFields w' := by
  simp only [mouseFields, h 4 (by decide), h 5 (by decide), h 6 (by decide), field_congr h (show 7 + 16 ≤ 71 by decide),
    field_congr h (show 23 + 16 ≤ 71 by decide), field_congr h (show 39 + 16 ≤ 71 by decide),
    field_congr h (show 55 + 16 ≤ 71 by decide)]

theorem axisField_congr {axisInW k : Nat} {w w' : CmdWord} (hk : k < 4)
    (h : ∀ j, j < 22 + 4 * axisInW → w.testBit j = w'.testBit j) :
    axisField axisInW k w = axisField axisInW k w' := by
  have hplace : k * axisInW + axisInW ≤ 4 * axisInW := by
    rw [← Nat.succ_mul]
    exact Nat.mul_le_mul_right axisInW hk
  exact congrArg BitVec.toInt (field_congr h (by omega))

theorem gamepadFields_congr {axisInW : Nat} {w w' : CmdWord}
    (h : ∀ k, k < 22 + 4 * axisInW → w.testBit k = w'.testBit k) :
    gamepadFields axisInW w = gamepadFields axisInW w' := by
  have hbool : ∀ k, k < 22 → w.testBit k = w'.testBit k := fun k hk => h k (by omega)
  simp (disch := decide) only [gamepadFields, hbool, axisField_congr (k := 0) (by decide) h,
    axisField_congr (k := 1) (by decide) h, axisField_congr (k := 2) (by decide) h,
    axisField_congr (k := 3) (by decide) h]

/-- Words that agree on the significant bits of what one of them stands for have the same operands (R66). -/
theorem commandOfCode_congr {axisInW : Nat} {w w' : CmdWord} : ∀ c : Nat,
    (∀ k, k < significantBits axisInW (commandOfCode axisInW w' c) → w.testBit k = w'.testBit k) →
      commandOfCode axisInW w c = commandOfCode axisInW w' c
  | 0x2, h => congrArg Instr.crcByte (field_congr h le_rfl)
  | 0x3, h => congrArg Instr.rdsr (field_congr h le_rfl)
  | 0x5, h => congrArg Instr.frmData (field_congr h le_rfl)
  | 0x8, h => congrArg Instr.encMouse (mouseFields_congr h)
  | 0x9, h => congrArg Instr.encGpad (gamepadFields_congr h)
  | 0x0, _ | 0x1, _ | 0x4, _ | 0x6, _ | 0x7, _ | 0xA, _ | 0xB, _ | 0xC, _ | 0xD, _ | 0xE, _ | _ + 15, _ => rfl

/-- Every format has the operation code among its significant bits. -/
theorem four_le_significantBits (axisInW : Nat) {i : Instr} (hi : i.isCommand = true) :
    4 ≤ significantBits axisInW i := by
  cases i with
  | mouseReport _ | gamepadReport _ | symEnd | symLit _ | symEend | symEesc => simp [Instr.isCommand] at hi
  | _ => simp only [significantBits]; omega

/-- Bits above a format's significant ones do not change which operation a word asks for (R66). -/
theorem decodeCommand_congr {axisInW : Nat} {w w' : CmdWord}
    (h : ∀ k, k < significantBits axisInW (decodeCommand axisInW w') → w.testBit k = w'.testBit k) :
    decodeCommand axisInW w = decodeCommand axisInW w' := by
  have hsig := four_le_significantBits axisInW (decodeCommand_isCommand axisInW w')
  have hcode : w % 16 = w' % 16 := by
    have hfield : field 4 0 w = field 4 0 w' := field_congr h hsig
    rw [code_of_field hfield, code_of_field rfl]
  rw [decodeCommand_of_code axisInW rfl] at h
  rw [decodeCommand_of_code axisInW hcode, decodeCommand_of_code axisInW (w := w') rfl]
  exact commandOfCode_congr _ h

/-- Settles O1: a word that agrees with the encoding decodes as the encoding does (`decodeCommand_congr`), and that is
to the instruction (`decodeCommand_encode`). -/
theorem commandWordRoundTripIgnoresHighBits : Obligations.CommandWordRoundTripIgnoresHighBits := by
  intro axisInW i cw w hw hi henc h
  have hcw : decodeCommand axisInW cw = i := decodeCommand_encode (by omega) hi henc
  rw [← hcw] at h ⊢
  exact decodeCommand_congr h

/-! ### The encoder inverts the decoder -/

/-- A field put back above the bits below it. -/
theorem mod_or_place (n lo : Nat) (w : CmdWord) : w % 2 ^ lo ||| place lo (field n lo w) = w % 2 ^ (lo + n) := by
  apply Nat.eq_of_testBit_eq
  intro i
  rw [Nat.testBit_or, testBit_place, getLsbD_field, Nat.testBit_mod_two_pow, Nat.testBit_mod_two_pow]
  by_cases hlo : i < lo
  · have hhi : i < lo + n := by omega
    simp [hlo, hhi]
  · have hle : lo ≤ i := by omega
    have hiff : i - lo < n ↔ i < lo + n := by omega
    simp [hlo, hle, hiff]

theorem mod_or_placeBool (lo : Nat) (w : CmdWord) :
    w % 2 ^ lo ||| placeBool lo (w.testBit lo) = w % 2 ^ (lo + 1) := by
  have hfield : BitVec.ofBool (w.testBit lo) = field 1 lo w := by
    apply BitVec.eq_of_getLsbD_eq
    intro i hi
    obtain rfl : i = 0 := by omega
    rw [getLsbD_field]
    simp
  rw [placeBool, hfield, mod_or_place]

theorem mod_or_placeAxis (axisInW k : Nat) (w : CmdWord) :
    w % 2 ^ (22 + k * axisInW) ||| placeAxis axisInW k (axisField axisInW k w)
      = w % 2 ^ (22 + (k + 1) * axisInW) := by
  rw [placeAxis, axisField, BitVec.ofInt_toInt, mod_or_place, Nat.succ_mul, Nat.add_assoc]

theorem place_code {w : CmdWord} {c : BitVec 4} (h : w % 16 = c.toNat) : place 0 c = w % 2 ^ 4 := by
  exact h.symm

theorem operandWord_field (n : Nat) {w : CmdWord} {c : BitVec 4} (h : w % 16 = c.toNat) :
    place 0 c ||| place 4 (field n 4 w) = w % 2 ^ (4 + n) := by
  rw [place_code h, mod_or_place]

theorem mouseWord_mouseFields {w : CmdWord} (h : w % 16 = 0x8) : mouseWord (mouseFields w) = w % 2 ^ 71 := by
  simp only [mouseWord, mouseFields, place_code (c := 0x8#4) h, mod_or_placeBool, mod_or_place, Nat.reduceAdd]

theorem gamepadWord_gamepadFields (axisInW : Nat) {w : CmdWord} (h : w % 16 = 0x9) :
    gamepadWord axisInW (gamepadFields axisInW w) = w % 2 ^ (22 + 4 * axisInW) := by
  have haxis0 : w % 2 ^ 22 ||| placeAxis axisInW 0 (axisField axisInW 0 w) = w % 2 ^ (22 + 1 * axisInW) := by
    simpa using mod_or_placeAxis axisInW 0 w
  simp only [gamepadWord, gamepadFields, place_code (c := 0x9#4) h, mod_or_placeBool, Nat.reduceAdd, haxis0,
    mod_or_placeAxis]

theorem encode_commandOfCode (axisInW : Nat) {w : CmdWord} : ∀ c : Nat, w % 16 = c →
    encode axisInW (commandOfCode axisInW w c)
      = .command (w % 2 ^ significantBits axisInW (commandOfCode axisInW w c))
  | 0x2, h | 0x5, h => congrArg Code.command (operandWord_field 8 h)
  | 0x3, h => congrArg Code.command (operandWord_field 4 h)
  | 0x8, h => congrArg Code.command (mouseWord_mouseFields h)
  | 0x9, h => congrArg Code.command (gamepadWord_gamepadFields axisInW h)
  | 0x0, h | 0x1, h | 0x4, h | 0x6, h | 0x7, h | 0xA, h | 0xB, h | 0xC, h | 0xD, h | 0xE, h | 0xF, h =>
    congrArg Code.command (place_code h)
  | c + 16, h => absurd (h ▸ Nat.mod_lt w (by decide)) (Nat.not_lt.mpr (Nat.le_add_left 16 c))

/-- Encoding what a word stands for gives the word's significant bits, and 0 above them. -/
theorem encode_decodeCommand (axisInW : Nat) (w : CmdWord) :
    encode axisInW (decodeCommand axisInW w)
      = .command (w % 2 ^ significantBits axisInW (decodeCommand axisInW w)) := by
  rw [decodeCommand_of_code axisInW rfl]
  exact encode_commandOfCode axisInW _ rfl

/-- Only the axes of format G can have values that their fields do not hold, and what is read from a field fits it. -/
theorem commandOfCode_wf (axisInW : Nat) (w : CmdWord) : ∀ c : Nat, (commandOfCode axisInW w c).wf axisInW = true
  | 0x9 => by simp [commandOfCode, Instr.wf, gamepadFields, axisFits_axisField]
  | 0x0 | 0x1 | 0x2 | 0x3 | 0x4 | 0x5 | 0x6 | 0x7 | 0x8 | 0xA | 0xB | 0xC | 0xD | 0xE | _ + 15 => rfl

theorem decodeCommand_wf (axisInW : Nat) (w : CmdWord) : (decodeCommand axisInW w).wf axisInW = true := by
  rw [decodeCommand_of_code axisInW rfl]
  exact commandOfCode_wf axisInW w _

/-- Format G takes the whole command word, the others lie within it from an `AXIS_IN_W` of 10 up; but format M from 13
up (R7, notes/assumptions/21.md). -/
theorem significantBits_le_cmdW {axisInW : Nat} {i : Instr} (hw : 10 ≤ axisInW)
    (hi : 13 ≤ axisInW ∨ ∀ m, i ≠ .encMouse m) : significantBits axisInW i ≤ Config.cmdW axisInW := by
  cases i with
  | encMouse m =>
    have hw13 : 13 ≤ axisInW := hi.resolve_right fun hne => hne m rfl
    simp only [significantBits, Config.cmdW]
    omega
  | _ => simp only [significantBits, Config.cmdW]; omega

/-- Settles O2: the encoding is the word cut to its significant bits (`encode_decodeCommand`). -/
theorem everyCommandWordEncodesItsInstruction : Obligations.EveryCommandWordEncodesItsInstruction := by
  intro axisInW w hw
  refine ⟨decodeCommand_isCommand axisInW w, decodeCommand_wf axisInW w,
    ⟨_, encode_decodeCommand axisInW w, Nat.mod_lt w (Nat.two_pow_pos _), fun k hk => ?_⟩,
    significantBits_le_cmdW hw⟩
  rw [Nat.testBit_mod_two_pow, decide_eq_true hk, Bool.true_and]

/-! ### Words that the spec writes out -/

/-- Settles O4, each word by evaluation. -/
theorem specWordsDecode : Obligations.SpecWordsDecode :=
  ⟨rfl, rfl, rfl, rfl, rfl, rfl, rfl, rfl, rfl⟩

end Sys2Proof

/-! Reports, symbols and frames of 30_encoding.md, sections 3 to 5, and their way back through the reference receiver:
the two report layouts (R70, R71), the stream symbols and the frame made of them (R73, R74), the inverse of a frame
(44_deframe_reference.md R150 to R157), and the mouse snapshot sent and recovered (R77, R94). -/

namespace Sys2Proof.Machine

/-! ### Report layouts -/

/-- Two bytes of a 16-bit field, put together again (R9, R157). -/
theorem fromLe16_extractLsb' (v : Word16) : fromLe16 (v.extractLsb' 0 8) (v.extractLsb' 8 8) = v := by
  apply BitVec.eq_of_getLsbD_eq
  intro i hi
  rw [fromLe16, BitVec.getLsbD_or, BitVec.getLsbD_shiftLeft, BitVec.getLsbD_setWidth, BitVec.getLsbD_setWidth,
    BitVec.getLsbD_extractLsb', BitVec.getLsbD_extractLsb']
  by_cases h : i < 8
  · simp [h, hi]
  · have hhigh : i - 8 < 8 := by omega
    have hwide : i - 8 < 16 := by omega
    have hplace : 8 + (i - 8) = i := by omega
    simp [h, hi, hhigh, hwide, hplace]

/-- `getLsbD_bit8` for a bit that the byte has. -/
theorem getElem_bit8 (b : Bool) {k : Nat} (hk : k < 8) : (bit8 b)[k] = (decide (k = 0) && b) := by
  rw [← BitVec.getLsbD_eq_getElem, getLsbD_bit8]

/-- The bits of the buttons byte of a mouse report (R82). -/
theorem getElem_mouseButtons (m : MouseSnapshot) :
    (mouseButtons m)[0] = m.left ∧ (mouseButtons m)[1] = m.right ∧ (mouseButtons m)[2] = m.middle := by
  simp [mouseButtons, getElem_bit8]

/-- The layout of R70 is the report of R81. -/
theorem mouseLayout_eq_mouseReport (m : MouseSnapshot) : mouseLayout m = mouseReport m := rfl

/-- A mouse report is read back field by field (R157, R94). -/
theorem decodeReport_mouseReport (m : MouseSnapshot) : decodeReport (mouseReport m) = .ok (.mouseReport m) := by
  obtain ⟨hleft, hright, hmiddle⟩ := getElem_mouseButtons m
  simp [decodeReport, mouseReport, header, le16, fromLe16_extractLsb', hleft, hright, hmiddle]

/-- The packed bytes are read back as they are, the padding byte dropped (R157). -/
theorem decodeReport_gamepadLayout (r : GamepadReport) : decodeReport (gamepadLayout r) = .ok (.gamepadReport r) := by
  simp [decodeReport, gamepadLayout]

theorem parseReport_mouseReport (m : MouseSnapshot) : parseReport (mouseReport m) = some (.mouse m) := by
  rw [parseReport, decodeReport_mouseReport]

theorem parseReport_gamepadLayout (r : GamepadReport) : parseReport (gamepadLayout r) = some (.gamepad r) := by
  rw [parseReport, decodeReport_gamepadLayout]

/-- The bytes that a gamepad snapshot is packed into (R85 to R90). -/
def packedBytes (g : GamepadSnapshot) : GamepadReport where
  buttons1 := gpButtons1 g
  buttons2 := gpButtons2 g
  dpad := dpadCode g.left g.right g.up g.down
  lx := clampAxis g.lx
  ly := clampAxis g.ly
  rx := clampAxis g.rx
  ry := clampAxis g.ry

theorem gamepadReport_eq_layout (g : GamepadSnapshot) : gamepadReport g = gamepadLayout (packedBytes g) := rfl

/-- The six buttons of `buttons2` lie below its reserved bits (R87). -/
theorem buttons2Ok_gpButtons2 (g : GamepadSnapshot) : buttons2Ok (gpButtons2 g) = true := by
  rw [buttons2Ok, beq_iff_eq]
  apply BitVec.eq_of_getLsbD_eq
  intro i hi
  rw [BitVec.getLsbD_extractLsb']
  interval_cases i <;> simp [gpButtons2, getElem_bit8]

/-- Every entry of `DPAD_LUT` is a hat code (R88). -/
theorem dpadOk_dpadCode : ∀ left right up down : Bool, dpadOk (dpadCode left right up down) = true := by
  decide

theorem packedBytes_wf (g : GamepadSnapshot) (axisInW : Nat) :
    (Instr.gamepadReport (packedBytes g)).wf axisInW = true := by
  simp only [Instr.wf, packedBytes, buttons2Ok_gpButtons2, dpadOk_dpadCode, Bool.and_self]

/-- Settles O8: a gamepad report is the layout of its packed bytes. -/
theorem gamepadReportParsesToPackedBytes : Obligations.GamepadReportParsesToPackedBytes := by
  intro g
  refine ⟨packedBytes g, ?_, packedBytes_wf g, rfl⟩
  rw [gamepadReport_eq_layout, parseReport_gamepadLayout]

/-! ### Stream symbols -/

/-- A byte other than END and ESC is a symbol by itself (R73). -/
theorem decodeSymbol_lit {b : Byte} (h : litOk b = true) (rest : List Byte) :
    decodeSymbol (b :: rest) = .ok (.symLit b, rest) := by
  obtain ⟨hend, hesc⟩ : b ≠ 0xC0#8 ∧ b ≠ 0xDB#8 := by simpa [litOk] using h
  simp only [decodeSymbol, if_neg hend, if_neg hesc]

/-- A well-formed symbol is the first symbol of its bytes, whatever follows (R73). -/
theorem decodeSymbol_encode {axisInW : Nat} {i : Instr} {bytes : List Byte} (hi : i.wf axisInW = true)
    (h : encode axisInW i = .symbol bytes) (rest : List Byte) : decodeSymbol (bytes ++ rest) = .ok (i, rest) := by
  cases i with
  | symEnd | symEend | symEesc =>
    cases h
    rfl
  | symLit b =>
    cases h
    exact decodeSymbol_lit hi rest
  | _ => cases h

/-- Settles O3: the reports by `decodeReport_mouseReport` and `decodeReport_gamepadLayout`, a symbol by
`decodeSymbol_encode`, alone or in front of other bytes. -/
theorem reportAndSymbolRoundTrip : Obligations.ReportAndSymbolRoundTrip := by
  intro axisInW i hc hi
  refine ⟨?_, fun bytes rest henc => decodeSymbol_encode hi henc rest⟩
  cases i with
  | mouseReport m => exact (congrArg decodeReport (mouseLayout_eq_mouseReport m)).trans (decodeReport_mouseReport m)
  | gamepadReport r => exact decodeReport_gamepadLayout r
  | symEnd | symEend | symEesc => rfl
  | symLit b => simp only [decode, encode, symbolBytes, decodeSymbol_lit hi]
  | _ => cases hc

/-! ### A frame as a sequence of symbols -/

/-- Stuffing a byte is writing its data symbol (R73, R121). -/
theorem symbolBytes_symbolOf (b : Byte) : symbolBytes (symbolOf b) = esc b := by
  unfold symbolOf esc
  split
  · rfl
  · split
    · rfl
    · rfl

theorem flatMap_symbolBytes (s : List Byte) : s.flatMap (fun b => symbolBytes (symbolOf b)) = escaped s := by
  simp only [symbolBytes_symbolOf, escaped]

/-- Only a byte that needs no stuffing gets a `LIT` (R73). -/
theorem symbolOf_wf (axisInW : Nat) (b : Byte) : (symbolOf b).wf axisInW = true := by
  unfold symbolOf
  split
  · rfl
  · split
    · rfl
    · simp_all [Instr.wf, litOk, byteEnd, byteEsc]

theorem symbolOf_mem (b : Byte) : symbolOf b ∈ [.symLit b, .symEend, .symEesc] := by
  unfold symbolOf
  split
  · simp
  · split <;> simp

/-- Settles O5: the stuffed parts of a frame are its data symbols (`flatMap_symbolBytes`). -/
theorem frameIsItsSymbols : Obligations.FrameIsItsSymbols := by
  intro p
  refine ⟨?_, fun axisInW b => ⟨symbolOf_wf axisInW b, symbolOf_mem b⟩⟩
  rw [flatMap_symbolBytes, flatMap_symbolBytes]
  rfl

/-! ### The inverse of a frame -/

/-- The inverse of stuffing, byte by byte (R121, R152). -/
theorem unescape_esc_append (b : Byte) (c : List Byte) : unescape (esc b ++ c) = (unescape c).map (b :: ·) := by
  rcases esc_cases b with ⟨rfl, hesc⟩ | ⟨rfl, hesc⟩ | ⟨-, hne, hesc⟩
  · rw [hesc]
    rfl
  · rw [hesc]
    rfl
  · rw [hesc]
    cases c with
    | nil => simp [unescape, byteEsc, hne]
    | cons x rest => simp [unescape, byteEsc, hne]

theorem unescape_escaped (s : List Byte) : unescape (escaped s) = some s := by
  induction s with
  | nil => rfl
  | cons b s ih => rw [escaped_cons, unescape_esc_append, ih, Option.map_some]

theorem escaped_append (s t : List Byte) : escaped (s ++ t) = escaped s ++ escaped t := by
  simp [escaped]

theorem byteEnd_notMem_escaped (s : List Byte) : byteEnd ∉ escaped s := by
  induction s with
  | nil => simp
  | cons b s ih =>
    rw [escaped_cons, List.mem_append, not_or]
    refine ⟨?_, ih⟩
    rcases esc_cases b with ⟨-, hesc⟩ | ⟨-, hesc⟩ | ⟨hne, -, hesc⟩
    · rw [hesc]
      decide
    · rw [hesc]
      decide
    · rw [hesc, List.mem_singleton]
      exact hne.symm

theorem escaped_ne_nil {s : List Byte} (h : s ≠ []) : escaped s ≠ [] := by
  intro hnil
  have hs := unescape_escaped s
  rw [hnil] at hs
  exact h (Option.some.inj hs).symm

/-- The last four bytes are the checksum of those before them (R153). -/
theorem checkWith_append (crc : List Byte → Word32) (p : List Byte) :
    checkWith crc (p ++ le32 (crc p)) = some p := by
  simp [checkWith]

/-- What stands between the ENDs of a frame is a candidate that is accepted, with its payload (R155). -/
theorem closeCandidate_escaped (p : List Byte) :
    closeCandidate true (escaped (p ++ le32 (crc32 p))) = [p] := by
  have hne : p ++ le32 (crc32 p) ≠ [] := by simp [le32]
  simp [closeCandidate, escaped_ne_nil hne, unescape_escaped, check, checkWith_append]

/-- Bytes without an END are collected inside a candidate (R155). -/
theorem deframeLoop_append {bs : List Byte} (h : byteEnd ∉ bs) (rest buf : List Byte) :
    deframeLoop (bs ++ rest) true buf = deframeLoop rest true (buf ++ bs) := by
  induction bs generalizing buf with
  | nil => simp
  | cons b bs ih =>
    obtain ⟨hb, hbs⟩ : byteEnd ≠ b ∧ byteEnd ∉ bs := by simpa using h
    simp [deframeLoop, hb.symm, ih hbs]

/-- A frame ends what was pending before it and gives its payload (R155, R156). -/
theorem deframeLoop_frame_append (p rest : List Byte) (inside : Bool) (buf : List Byte) :
    deframeLoop (frame p ++ rest) inside buf = closeCandidate inside buf ++ p :: deframeLoop rest true [] := by
  have hframe : frame p ++ rest = byteEnd :: (escaped (p ++ le32 (crc32 p)) ++ byteEnd :: rest) := by
    simp [frame, frameWith, escaped_append]
  have hinner := deframeLoop_append (byteEnd_notMem_escaped (p ++ le32 (crc32 p))) (byteEnd :: rest) []
  rw [hframe, deframeLoop, if_pos rfl, hinner, List.nil_append, deframeLoop, if_pos rfl, closeCandidate_escaped]
  rfl

theorem deframeStream_frame (p : List Byte) : deframeStream (frame p) = [p] := by
  have h := deframeLoop_frame_append p [] false []
  rwa [List.append_nil] at h

/-! ### The mouse snapshot, sent and recovered -/

section
variable {s : State}

/-- A state that is not halted does not refuse (R173). -/
theorem State.unlessHalted_of_noFault (h : s.ecause = .noFault) (op : State → Result) : s.unlessHalted op = op s :=
  if_pos h

/-- A halted state refuses, with no effect (R173). -/
theorem State.unlessHalted_of_halted (h : s.ecause ≠ .noFault) (op : State → Result) : s.unlessHalted op = .next s :=
  if_neg h

theorem exec_encMouse (h : s.ecause = .noFault) (m : MouseSnapshot) :
    exec (.encMouse m) s = .next { s with rb := rbOf (mouseReport m), rlen := .mouse } := by
  rw [exec, execEncMouse, State.unlessHalted_of_noFault h]

/-- `SEND` of a report that is present, outside a frame, in either mode (R140, R141). -/
theorem exec_send_of_report (h : s.ecause = .noFault) (hph : s.ph = .idle) (hrlen : s.rlen ≠ .empty) :
    exec .send s = .next { s with
      offer := s.offer ++ withLast (send s.mode s.report)
      crc := if s.mode = .stream then crcAbsorb crcInitValue s.report else s.crc } := by
  rw [exec, execSend, State.unlessHalted_of_noFault h]
  cases hmode : s.mode with
  | stream => simp [hph, hrlen, hmode, send, State.emitFramed_eq]
  | dgram => simp [hph, hrlen, hmode, send, State.emitDatagram_eq]

/-- The pseudo-operation `SENDM m` (R77) emits `send` of the mouse report. -/
theorem runOps_sendMouse (h : s.ecause = .noFault) (hph : s.ph = .idle) (m : MouseSnapshot) :
    ∃ t, runOps [.encMouse m, .send] s = .next t ∧
      t.emitted = s.emitted ++ withLast (send s.mode (mouseReport m)) := by
  have hsend := exec_send_of_report (s := { s with rb := rbOf (mouseReport m), rlen := .mouse }) h hph (by simp)
  simp only [runOps, exec_encMouse h, hsend]
  exact ⟨_, rfl, (List.append_assoc _ _ _).symm⟩

end

/-- Settles O60: `SENDM` emits `send` of the report (`runOps_sendMouse`); in STREAM mode that is a frame, of which
`deframeStream` gives back the report; the report parses to the snapshot. -/
theorem mouseSnapshotReachesTheReceiver : Obligations.MouseSnapshotReachesTheReceiver := by
  intro m s h hph
  obtain ⟨t, hrun, hemitted⟩ := runOps_sendMouse h hph m
  refine ⟨t, _, hrun, hemitted, fun hmode => ?_, fun hmode => ?_⟩
  · rw [withLast_map_byte, hmode]
    exact ⟨mouseReport m, deframeStream_frame _, parseReport_mouseReport m⟩
  · rw [withLast_map_byte, hmode]
    exact parseReport_mouseReport m

end Sys2Proof.Machine

/-! The reserved operation codes (30_encoding.md R69), the rows that only the reference receiver reads (R73, R157), and
the instruction that a step runs. -/

namespace Sys2Proof.Machine

/-! ### Reserved codes -/

/-- A reserved code raises ILLEGAL, or is refused while halted (R69, R173). -/
theorem illegalCode_eq (s : State) :
    (s.ecause = .noFault → illegalCode s = .next { s with ecause := .illegal }) ∧
      (s.ecause ≠ .noFault → illegalCode s = .next s) :=
  ⟨fun h => State.unlessHalted_of_noFault h _, fun h => State.unlessHalted_of_halted h _⟩

/-- `RDSR` of a number that is no register is a reserved code (R69, R142). -/
theorem execRdsr_of_reserved {n : BitVec 4} (h : 6 ≤ n.toNat) (s : State) : execRdsr n s = illegalCode s := by
  simp only [execRdsr, statusReg_none s h]
  rfl

/-- All reserved rows have one meaning. -/
theorem exec_reserved {i : Instr}
    (hi : i ∈ [Instr.reserved0, .reserved7, .reservedB, .reservedC, .reservedD, .reservedE, .reservedF] ∨
      ∃ n : BitVec 4, 6 ≤ n.toNat ∧ i = .rdsr n) (s : State) : exec i s = illegalCode s := by
  rcases hi with hi | ⟨n, hn, rfl⟩
  · simp only [List.mem_cons, List.not_mem_nil, or_false] at hi
    rcases hi with rfl | rfl | rfl | rfl | rfl | rfl | rfl <;> rfl
  · exact execRdsr_of_reserved hn s

/-- Settles O36: the words by their code (`decodeCommand_of_code`), the effect by `exec_reserved`. -/
theorem reservedCodesRaiseIllegal : Obligations.ReservedCodesRaiseIllegal := by
  constructor
  · intro axisInW w
    exact ⟨decodeCommand_of_code axisInW, decodeCommand_of_code axisInW, decodeCommand_of_code axisInW,
      decodeCommand_of_code axisInW, decodeCommand_of_code axisInW, decodeCommand_of_code axisInW,
      decodeCommand_of_code axisInW⟩
  · intro i hi s
    rw [exec_reserved hi]
    exact illegalCode_eq s

/-! ### The receiver's rows -/

/-- Settles O37: each meaning is the receiver's update of its bytes, or of its report. -/
theorem symbolsAndReportsReachTheReceiver : Obligations.SymbolsAndReportsReachTheReceiver :=
  fun _ => ⟨rfl, fun _ => rfl, rfl, rfl, fun _ => rfl, fun _ => rfl⟩

/-! ### The instruction a step runs -/

section
variable {s : State}

/-- The block is ready exactly outside reset with nothing on offer (R46, R190). -/
theorem State.cmdReady_eq_true {p : Pins} : s.cmdReady p = true ↔ p.rst = false ∧ s.offer = [] := by
  simp [State.cmdReady]

theorem wireMoment_of_symbol {bytes left : List Byte} {i : Instr} (h : decodeSymbol bytes = .ok (i, left)) :
    wireMoment bytes s = exec i (s.unread left) := by
  simp only [wireMoment, h]

theorem payloadMoment_of_report {bytes : List Byte} {i : Instr} (h : decodeReport bytes = .ok i) :
    payloadMoment bytes s = exec i s := by
  simp only [payloadMoment, h]

/-- Bytes left over go back in front of the inputs, unless there are none. -/
theorem State.unread_eq (s : State) (left : List Byte) :
    s.unread left = { s with inputs := if left = [] then s.inputs else .wire left :: s.inputs } := by
  cases left with
  | nil => rfl
  | cons b rest => rw [State.unread_cons, if_neg (by simp)]

end

/-- Settles O45, by the kind of input. -/
theorem stepRunsTheDecodedInstruction : Obligations.StepRunsTheDecodedInstruction := by
  refine ⟨fun s p rest hin hready hcmd => ?_, fun s bytes left rest i hin hsym => ?_,
    fun s bytes rest i hin hrep => ?_⟩
  · obtain ⟨hrst, hoffer⟩ := State.cmdReady_eq_true.mp hready
    rw [step_of_pins hin]
    exact pinsMoment_of_command hrst hoffer hcmd
  · rw [step_of_wire hin, wireMoment_of_symbol hsym, State.unread_eq]
  · rw [step_of_payload hin, payloadMoment_of_report hrep]

end Sys2Proof.Machine

/-! The report encoder, 40_report_encoder.md: the button bytes (R82, R86, R87), the dpad table (R88), the axis clamp
(R89), the reports made of them (R93, R94), and the operations `ENC.MOUSE` and `ENC.GPAD` (R84, R91, R92). -/

namespace Sys2Proof.Machine

/-! ### Button bytes -/

/-- A Boolean shifted to place `n` is bit `n` alone. -/
theorem getLsbD_bit8_shiftLeft (b : Bool) {n : Nat} (hn : n < 8) (k : Nat) :
    (bit8 b <<< n).getLsbD k = (decide (k = n) && b) := by
  rw [BitVec.getLsbD_shiftLeft, getLsbD_bit8]
  by_cases h : k = n
  · simp [h, hn]
  · by_cases hlt : k < n
    · simp [h, hlt]
    · have hne : k - n ≠ 0 := by omega
      simp [h, hne]

/-- R82, for every bit number. -/
theorem getLsbD_mouseButtons (m : MouseSnapshot) (k : Nat) :
    (mouseButtons m).getLsbD k = [m.left, m.right, m.middle].getD k false := by
  rw [mouseButtons]
  simp only [BitVec.getLsbD_or, getLsbD_bit8, getLsbD_bit8_shiftLeft, Nat.reduceLT]
  match k with
  | 0 | 1 | 2 | _ + 3 => simp

/-- R86, for every bit number. -/
theorem getLsbD_gpButtons1 (g : GamepadSnapshot) (k : Nat) :
    (gpButtons1 g).getLsbD k = [g.y, g.b, g.a, g.x, g.l, g.r, g.zl, g.zr].getD k false := by
  rw [gpButtons1]
  simp only [BitVec.getLsbD_or, getLsbD_bit8, getLsbD_bit8_shiftLeft, Nat.reduceLT]
  match k with
  | 0 | 1 | 2 | 3 | 4 | 5 | 6 | 7 | _ + 8 => simp

/-- R87, for every bit number. -/
theorem getLsbD_gpButtons2 (g : GamepadSnapshot) (k : Nat) :
    (gpButtons2 g).getLsbD k = [g.minus, g.plus, g.ls, g.rs, g.home, g.capture].getD k false := by
  rw [gpButtons2]
  simp only [BitVec.getLsbD_or, getLsbD_bit8, getLsbD_bit8_shiftLeft, Nat.reduceLT]
  match k with
  | 0 | 1 | 2 | 3 | 4 | 5 | _ + 6 => simp

/-- Settles O9, byte by byte. -/
theorem buttonBytesHoldTheirBits : Obligations.ButtonBytesHoldTheirBits :=
  ⟨getLsbD_mouseButtons, getLsbD_gpButtons1, getLsbD_gpButtons2⟩

/-! ### The dpad table -/

/-- Settles O10: the sixteen rows, one by one. -/
theorem dpadTableRows : Obligations.DpadTableRows := by
  unfold Obligations.DpadTableRows
  decide

/-! ### Axes -/

theorem clampAxis_of_neg {i : Int} (h : i < 0) : clampAxis i = 0x00 :=
  if_pos h

theorem clampAxis_of_gt {i : Int} (h : 255 < i) : clampAxis i = 0xFF :=
  (if_neg (by omega)).trans (if_pos h)

/-- Inside its range the clamp is the identity (R89). -/
theorem toNat_clampAxis {i : Int} (h0 : 0 ≤ i) (h255 : i ≤ 255) : ((clampAxis i).toNat : Int) = i := by
  rw [clampAxis, if_neg (by omega), if_neg (by omega), BitVec.toNat_ofInt]
  omega

/-- A value that fits the field is read back from a word it is placed in (R65, R67). -/
theorem axisField_placeAxis {axisInW : Nat} {i : Int} (hw : 1 ≤ axisInW) (hi : axisFits axisInW i = true) (k : Nat) :
    axisField axisInW k (placeAxis axisInW k i) = i := by
  rw [axisField, placeAxis, field_place, toInt_ofInt_of_fits hw hi]

/-- What fits a field of some width fits every wider one. -/
theorem axisFits_mono {n axisInW : Nat} {i : Int} (hn : n ≤ axisInW) (h : axisFits n i = true) :
    axisFits axisInW i = true := by
  have hpow : (2 : Int) ^ (n - 1) ≤ 2 ^ (axisInW - 1) := pow_le_pow_right₀ (by decide) (by omega)
  simp only [axisFits, Bool.and_eq_true, decide_eq_true_eq] at h ⊢
  omega

/-- The document's test points fit the narrowest field (R7, R89). -/
theorem axisFits_testPoints : ∀ i ∈ ([-1, 256, 128, 0, 255] : List Int), axisFits 10 i = true := by
  decide

/-- Settles O11: the clamp by its three ranges, the fields by `axisField_placeAxis`. -/
theorem axisClampSaturates : Obligations.AxisClampSaturates := by
  refine ⟨fun i => ⟨clampAxis_of_neg, clampAxis_of_gt, toNat_clampAxis⟩, fun axisInW k w => ?_,
    fun axisInW k i hw hi => ?_, fun k => ⟨?_, ?_⟩, by decide⟩
  · rw [axisField, field, Nat.shiftRight_eq_div_pow]
  · exact axisField_placeAxis (by omega) (axisFits_mono hw (axisFits_testPoints i hi)) k
  · exact axisField_placeAxis (by decide) (by decide) k
  · exact axisField_placeAxis (by decide) (by decide) k

/-! ### Reports -/

/-- A byte that is neither END nor ESC is not stuffed (R121). -/
theorem esc_of_ne {b : Byte} (hend : b ≠ byteEnd) (hesc : b ≠ byteEsc) : esc b = [b] := by
  rw [esc, if_neg hend, if_neg hesc]

/-- No header byte of either report is END or ESC (R80, R93). -/
theorem headerBytes_ne : ∀ b ∈ ([1, 0, 9, 1, 2, 8] : List Byte), b ≠ byteEnd ∧ b ≠ byteEsc := by
  decide

/-- Settles O6: lengths and headers are the layouts', and `headerBytes_ne`. -/
theorem reportsHaveFixedLengthAndHeader : Obligations.ReportsHaveFixedLengthAndHeader := by
  refine ⟨fun m => ⟨rfl, rfl⟩, fun g => ⟨rfl, rfl⟩, fun b hb => ?_⟩
  obtain ⟨hend, hesc⟩ := headerBytes_ne b hb
  exact esc_of_ne hend hesc

/-- A mouse report determines its snapshot, since it parses to it (R94). -/
theorem mouseReport_injective : Function.Injective mouseReport := by
  intro m m' h
  have hparse := parseReport_mouseReport m
  rw [h, parseReport_mouseReport] at hparse
  cases hparse
  rfl

/-- A gamepad report holds no more of the snapshot than its packed bytes. -/
theorem gamepadReport_congr {g g' : GamepadSnapshot} (h : packedBytes g = packedBytes g') :
    gamepadReport g = gamepadReport g' := by
  rw [gamepadReport_eq_layout, gamepadReport_eq_layout, h]

/-- All four directions and none have the same code, 15 (R88, R94). -/
theorem dpadCode_none_eq_all : dpadCode false false false false = dpadCode true true true true :=
  (dpadTableRows false false false false).trans (dpadTableRows true true true true).symm

/-- The greatest axis value and the one above it have the same byte (R89, R94). -/
theorem clampAxis_255_eq_256 : clampAxis 255 = clampAxis 256 := by
  decide

/-- Settles O7: the mouse by parsing its report; the gamepad by two snapshots with the same packed bytes, through the
dpad code or a clamped axis. -/
theorem mouseReportRecoversItsSnapshot : Obligations.MouseReportRecoversItsSnapshot := by
  refine ⟨parseReport_mouseReport, fun m m' h => mouseReport_injective h, fun g => gamepadReport_congr ?_,
    fun g => gamepadReport_congr ?_⟩
  · exact congrArg (fun d => { packedBytes g with dpad := d }) dpadCode_none_eq_all
  · exact congrArg (fun a => { packedBytes g with lx := a }) clampAxis_255_eq_256

/-! ### Operations -/

section
variable {s : State}

theorem exec_encGpad (h : s.ecause = .noFault) (g : GamepadSnapshot) :
    exec (.encGpad g) s = .next { s with rb := rbOf (gamepadReport g), rlen := .gpad } := by
  rw [exec, execEncGpad, State.unlessHalted_of_noFault h]

theorem exec_encMouse_of_halted (h : s.ecause ≠ .noFault) (m : MouseSnapshot) : exec (.encMouse m) s = .next s := by
  rw [exec, execEncMouse, State.unlessHalted_of_halted h]

theorem exec_encGpad_of_halted (h : s.ecause ≠ .noFault) (g : GamepadSnapshot) : exec (.encGpad g) s = .next s := by
  rw [exec, execEncGpad, State.unlessHalted_of_halted h]

end

/-- Settles O29: the word by its code, the buffer by `exec_encMouse` and `rbOf_mouseReport_toList`. -/
theorem encMouseWritesTheReport : Obligations.EncMouseWritesTheReport :=
  ⟨fun axisInW _ => decodeCommand_of_code axisInW,
    fun m _ h => ⟨_, rbOf_mouseReport_toList m, exec_encMouse h m⟩,
    fun m _ h => exec_encMouse_of_halted h m, by decide⟩

/-- Settles O30: the word by its code, the buffer by `exec_encGpad` and `rbOf_gamepadReport_toList`. -/
theorem encGpadWritesTheReport : Obligations.EncGpadWritesTheReport :=
  ⟨fun axisInW _ => decodeCommand_of_code axisInW,
    fun g _ h => ⟨_, rbOf_gamepadReport_toList g, exec_encGpad h g⟩,
    fun g _ h => exec_encGpad_of_halted h g, by decide⟩

/-- An encode operation writes `RB` and `RLEN` values of its own and keeps the rest of the state (R84, R91). -/
theorem exec_encode {i : Instr} (hi : (∃ m, i = .encMouse m) ∨ ∃ g, i = .encGpad g) :
    ∃ rb rlen, ∀ s : State, s.ecause = .noFault → exec i s = .next { s with rb := rb, rlen := rlen } := by
  rcases hi with ⟨m, rfl⟩ | ⟨g, rfl⟩
  · exact ⟨_, _, fun _ h => exec_encMouse h m⟩
  · exact ⟨_, _, fun _ h => exec_encGpad h g⟩

/-- Settles O31: what is written does not depend on the state (`exec_encode`), so writing it again changes nothing. -/
theorem encodingIsAFunctionOfTheWord : Obligations.EncodingIsAFunctionOfTheWord := by
  intro i hi s s' h h'
  obtain ⟨rb, rlen, hexec⟩ := exec_encode hi
  exact ⟨_, _, hexec s h, hexec s' h', rfl, rfl, hexec { s with rb := rb, rlen := rlen } h⟩

end Sys2Proof.Machine

/-! The CRC unit, 41_crc32.md: one iteration as a linear map without kernel (R102), the table form (R105), the
most-significant-bit-first form (R106), the residue of a payload and its own checksum (R110), the values of R109, and
the operations `CRC.INIT` and `CRC.BYTE` with the checksum they leave (R107, R108). -/

namespace Sys2Proof.Machine

/-! ### One iteration, and several -/

theorem iterate_eq {α : Type} (f : α → α) (n : Nat) (x : α) : iterate f n x = f^[n] x := by
  induction n generalizing x with
  | zero => rfl
  | succ n ih => exact ih (f x)

theorem iterate_add {α : Type} (f : α → α) (m n : Nat) (x : α) :
    iterate f (m + n) x = iterate f m (iterate f n x) := by
  simp only [iterate_eq, Function.iterate_add_apply]

theorem crcShift_of_bit_zero_false {c : Word32} (h : c.getLsbD 0 = false) : crcShift c = c >>> 1 := by
  rw [crcShift, h, if_neg Bool.false_ne_true]

/-- Bit 31 of the polynomial is 1, so it records whether bit 0 was shifted out (R101, R102). -/
theorem getLsbD_31_crcShift (c : Word32) : (crcShift c).getLsbD 31 = c.getLsbD 0 := by
  have hout : (c >>> 1).getLsbD 31 = false := by rw [BitVec.getLsbD_ushiftRight, BitVec.getLsbD_of_ge _ _ (by decide)]
  have hpoly : crcPolyReflected.getLsbD 31 = true := by decide
  rw [crcShift]
  split
  case isTrue h => rw [BitVec.getLsbD_xor, hout, hpoly, h, Bool.false_xor]
  case isFalse h => rw [hout, Bool.eq_false_of_not_eq_true h]

/-- Nothing but 0 is taken to 0: the bit shifted out was 0, and so were the others. -/
theorem eq_zero_of_crcShift_eq_zero {c : Word32} (h : crcShift c = 0) : c = 0 := by
  have hbit : c.getLsbD 0 = false := by rw [← getLsbD_31_crcShift, h]; rfl
  have hshift : c >>> 1 = 0 := by rw [← crcShift_of_bit_zero_false hbit, h]
  apply BitVec.eq_of_getLsbD_eq
  intro i _
  cases i with
  | zero => exact hbit
  | succ i => simpa [Nat.add_comm] using congrArg (BitVec.getLsbD · i) hshift

theorem crcShift_injective : Function.Injective crcShift := by
  intro a b h
  have hzero : crcShift (a ^^^ b) = 0 := by rw [crcShift_xor, h, BitVec.xor_self]; rfl
  exact BitVec.xor_eq_zero_iff.mp (eq_zero_of_crcShift_eq_zero hzero)

/-- Settles O12: XOR with the byte is injective, and so is each of the eight iterations (`crcShift_injective`); on the
finite set of accumulator values that is enough. -/
theorem crcUpdateIsBijective : Obligations.CrcUpdateIsBijective := by
  intro b
  apply Finite.injective_iff_bijective.mp
  intro c c' h
  simp only [crcUpdate, iterate_eq] at h
  exact (BitVec.xor_left_inj _).mp (crcShift_injective.iterate 8 h)

/-! ### The table form -/

/-- While no 1 is shifted out, the iterations are a plain shift (R102). -/
theorem iterate_crcShift_of_low_bits_false (n : Nat) {c : Word32} (h : ∀ k, k < n → c.getLsbD k = false) :
    iterate crcShift n c = c >>> n := by
  induction n generalizing c with
  | zero => simp [iterate]
  | succ n ih =>
    have hlow : ∀ k, k < n → (c >>> 1).getLsbD k = false := by
      intro k hk
      rw [BitVec.getLsbD_ushiftRight]
      exact h _ (by omega)
    rw [iterate, crcShift_of_bit_zero_false (h 0 (by omega)), ih hlow, ← BitVec.shiftRight_add, Nat.add_comm]

theorem lowByte_xor_rest (c : Word32) : (c.setWidth 8).setWidth 32 ^^^ (c >>> 8 <<< 8) = c := by
  apply BitVec.eq_of_getLsbD_eq
  intro i hi
  by_cases h : i < 8 <;> simp [h, hi, Nat.not_lt.mp]

/-- Eight iterations on a XOR absorb the low byte of one side and move its other bytes down (R102). -/
theorem iterate_crcShift_eight_xor (c v : Word32) :
    iterate crcShift 8 (c ^^^ v) = crcUpdate c (v.setWidth 8) ^^^ (v >>> 8) := by
  have hlow : ∀ k, k < 8 → (v >>> 8 <<< 8).getLsbD k = false := by simp +contextual
  have hback : v >>> 8 <<< 8 >>> 8 = v >>> 8 := by
    apply BitVec.eq_of_getLsbD_eq
    simpa using fun _ _ => BitVec.lt_of_getLsbD
  calc iterate crcShift 8 (c ^^^ v)
    _ = iterate crcShift 8 (c ^^^ (v.setWidth 8).setWidth 32 ^^^ (v >>> 8 <<< 8)) := by
      rw [BitVec.xor_assoc, lowByte_xor_rest]
    _ = crcUpdate c (v.setWidth 8) ^^^ (v >>> 8) := by
      rw [iterate_crcShift_xor, iterate_crcShift_of_low_bits_false 8 hlow, hback, crcUpdate]

/-- A table entry is what the zero accumulator makes of the byte (R105). -/
theorem crcUpdate_zero (b : Byte) : crcUpdate 0#32 b = crcTable b :=
  congrArg (iterate crcShift 8) BitVec.zero_xor

theorem iterate_crcShift_eight (c : Word32) :
    iterate crcShift 8 c = crcTable (c.setWidth 8) ^^^ (c >>> 8) := by
  have h := iterate_crcShift_eight_xor 0#32 c
  rwa [BitVec.zero_xor, crcUpdate_zero] at h

/-- A byte does not reach the bits that are moved down. -/
theorem xor_byte_ushiftRight (c : Word32) (b : Byte) : (c ^^^ b.setWidth 32) >>> 8 = c >>> 8 := by
  apply BitVec.eq_of_getLsbD_eq
  simp

/-- Settles O13: the two forms by `iterate_crcShift_eight`; the entries by evaluation. -/
theorem crcTableFormAgrees : Obligations.CrcTableFormAgrees := by
  refine ⟨fun c b => ?_, fun _ => rfl, by decide⟩
  rw [crcUpdate, iterate_crcShift_eight, xor_byte_ushiftRight]

/-! ### The most-significant-bit-first form -/

theorem reverse_xor (a b : Word32) : (a ^^^ b).reverse = a.reverse ^^^ b.reverse := by
  apply BitVec.eq_of_getLsbD_eq
  simp [BitVec.getLsbD_reverse]

/-- A shift right, read from the other end, is a shift left. -/
theorem reverse_ushiftRight_one (c : Word32) : (c >>> 1).reverse = c.reverse <<< 1 := by
  apply BitVec.eq_of_getLsbD_eq
  intro i hi
  rw [BitVec.getLsbD_reverse, BitVec.getLsbD_shiftLeft, BitVec.getLsbD_reverse]
  cases i with
  | zero => simp [BitVec.getMsbD_eq_getLsbD]
  | succ i => simp [BitVec.getMsbD_ushiftRight]

/-- The low byte, read from the other end, is the high byte reversed (R106). -/
theorem reverse_setWidth_byte (b : Byte) : (b.setWidth 32).reverse = b.reverse.setWidth 32 <<< 24 := by
  apply BitVec.eq_of_getLsbD_eq
  intro i hi
  rw [BitVec.getLsbD_reverse, BitVec.getLsbD_shiftLeft, BitVec.getLsbD_setWidth, BitVec.getLsbD_reverse,
    BitVec.getMsbD_setWidth]
  by_cases h : i < 24
  · simp [h]
  · simp [h, hi, Nat.not_lt.mp h, show i - 24 < 32 by omega]

/-- One iteration of either form is the other's on the reversed accumulator: the polynomials are each other's
reversals (R101, R106). -/
theorem crcShiftMsb_reverse (c : Word32) : crcShiftMsb c.reverse = (crcShift c).reverse := by
  have hbit : c.reverse.getLsbD 31 = c.getLsbD 0 := by
    rw [BitVec.getLsbD_reverse, BitVec.getMsbD_eq_getLsbD]; simp
  have hpoly : crcPolyReflected.reverse = 0x04C11DB7#32 := by decide +kernel
  rw [crcShiftMsb, crcShift, hbit]
  split
  · rw [reverse_xor, reverse_ushiftRight_one, hpoly]
  · rw [reverse_ushiftRight_one]

theorem iterate_crcShiftMsb_reverse (n : Nat) (c : Word32) :
    iterate crcShiftMsb n c.reverse = (iterate crcShift n c).reverse := by
  induction n generalizing c with
  | zero => rfl
  | succ n ih => rw [iterate, iterate, crcShiftMsb_reverse, ih]

theorem crcUpdateMsb_reverse (c : Word32) (b : Byte) : crcUpdateMsb c.reverse b = (crcUpdate c b).reverse := by
  rw [crcUpdateMsb, crcUpdate, ← iterate_crcShiftMsb_reverse, reverse_xor, reverse_setWidth_byte]

theorem foldl_crcUpdateMsb_reverse (c : Word32) (s : List Byte) :
    s.foldl crcUpdateMsb c.reverse = (crcAbsorb c s).reverse := by
  induction s generalizing c with
  | nil => rfl
  | cons b s ih =>
    rw [List.foldl_cons, crcUpdateMsb_reverse, ih]
    rfl

/-- Settles O14: the initial value is its own reversal, and each byte keeps the accumulators reversed
(`foldl_crcUpdateMsb_reverse`). -/
theorem crcMsbFirstFormAgrees : Obligations.CrcMsbFirstFormAgrees := by
  have hinit : (0xFFFFFFFF#32).reverse = 0xFFFFFFFF#32 := by decide +kernel
  have hacc : ∀ s : List Byte, s.foldl crcUpdateMsb 0xFFFFFFFF#32 = (crcAbsorb 0xFFFFFFFF#32 s).reverse := by
    intro s
    rw [← foldl_crcUpdateMsb_reverse, hinit]
  refine ⟨hacc, fun s => ?_⟩
  rw [crc32Msb, hacc, BitVec.reverse_reverse_eq]
  rfl

/-! ### The residue -/

/-- Byte `k` of a word is the low byte of the word moved down by `k` bytes (R9). -/
theorem le32_eq_lowBytes (v : Word32) :
    le32 v = [v.setWidth 8, (v >>> 8).setWidth 8, (v >>> 16).setWidth 8, (v >>> 24).setWidth 8] := by
  simp only [BitVec.setWidth_eq_extractLsb' (show 8 ≤ 32 by decide)]
  rfl

/-- Absorbing four bytes is one XOR with their word and 32 iterations: each eight of them take in the low byte of what
is left of the word (`iterate_crcShift_eight_xor`). -/
theorem crcAbsorb_le32 (c v : Word32) : crcAbsorb c (le32 v) = iterate crcShift 32 (c ^^^ v) := by
  have h32 : iterate crcShift 32 (c ^^^ v)
      = iterate crcShift 8 (iterate crcShift 8 (iterate crcShift 8 (iterate crcShift 8 (c ^^^ v)))) := by
    simp only [← iterate_add]
  have hout : v >>> 32 = 0#32 := BitVec.ushiftRight_eq_zero le_rfl
  simp only [le32_eq_lowBytes, h32, iterate_crcShift_eight_xor, ← BitVec.shiftRight_add, hout, BitVec.xor_zero]
  rfl

/-- Before the final XOR, accumulator and checksum differ in every bit (R103). -/
theorem xor_crcFinal (c : Word32) : c ^^^ crcFinal c = 0xFFFFFFFF#32 := by
  rw [crcFinal, ← BitVec.xor_assoc, BitVec.xor_self, BitVec.zero_xor]
  rfl

/-- What 32 iterations make of the all-ones word: the residue (R110). -/
theorem iterate_crcShift_ones : iterate crcShift 32 0xFFFFFFFF#32 = 0xDEBB20E3#32 := by decide +kernel

theorem crcAbsorb_append_checksum (p : List Byte) :
    crcAbsorb crcInitValue (p ++ le32 (crc32 p)) = 0xDEBB20E3#32 := by
  rw [crcAbsorb_append, crcAbsorb_le32, crc32, xor_crcFinal, iterate_crcShift_ones]

theorem crc32_append_checksum (p : List Byte) : crc32 (p ++ le32 (crc32 p)) = 0x2144DF1C#32 := by
  rw [crc32, crcAbsorb_append_checksum]
  rfl

/-- The checksum compares with the last four bytes (R153). -/
theorem check_append_of_length_four {t : List Byte} (h : t.length = 4) (p : List Byte) :
    check (p ++ t) = if le32 (crc32 p) = t then some p else none := by
  simp [check, checkWith, h]

theorem crc32_four_zeros : crc32 [0x00, 0x00, 0x00, 0x00] = 0x2144DF1C := by decide +kernel

/-- Settles O15: the residue by `crcAbsorb_append_checksum`, the comparison by `check_append_of_length_four`. -/
theorem crcResidueIsConstant : Obligations.CrcResidueIsConstant :=
  ⟨fun p => ⟨crcAbsorb_append_checksum p, crc32_append_checksum p, crc32_four_zeros⟩,
    fun p _ h => check_append_of_length_four h p⟩

/-! ### The check values -/

/-- Settles O16: each row of R109 by evaluation. -/
theorem crcCheckValues : Obligations.CrcCheckValues := by
  unfold Obligations.CrcCheckValues
  decide +kernel

/-! ### Operations -/

section
variable {s : State}

theorem exec_crcInit_of_idle (h : s.ecause = .noFault) (hph : s.ph = .idle) :
    exec .crcInit s = .next { s with crc := crcInitValue } := by
  rw [exec, execCrcInit, State.unlessHalted_of_noFault h, hph, if_neg (by decide)]

theorem exec_crcInit_of_opened (h : s.ecause = .noFault) (hph : s.ph = .opened) :
    exec .crcInit s = .next (s.opFault .seq) := by
  rw [exec, execCrcInit, State.unlessHalted_of_noFault h, if_pos hph, raiseOpFault]

theorem exec_crcInit_of_halted (h : s.ecause ≠ .noFault) : exec .crcInit s = .next s := by
  rw [exec, execCrcInit, State.unlessHalted_of_halted h]

theorem exec_crcByte_of_idle (h : s.ecause = .noFault) (hph : s.ph = .idle) (b : Byte) :
    exec (.crcByte b) s = .next { s with crc := crcUpdate s.crc b } := by
  rw [exec, execCrcByte, State.unlessHalted_of_noFault h, hph, if_neg (by decide)]

theorem exec_crcByte_of_opened (h : s.ecause = .noFault) (hph : s.ph = .opened) (b : Byte) :
    exec (.crcByte b) s = .next (s.opFault .seq) := by
  rw [exec, execCrcByte, State.unlessHalted_of_noFault h, if_pos hph, raiseOpFault]

theorem exec_crcByte_of_halted (h : s.ecause ≠ .noFault) (b : Byte) : exec (.crcByte b) s = .next s := by
  rw [exec, execCrcByte, State.unlessHalted_of_halted h]

/-- A `CRC.BYTE` per byte runs the loop of R104 on `CRC` and changes nothing else (R108). -/
theorem runOps_crcBytes (bs : List Byte) (h : s.ecause = .noFault) (hph : s.ph = .idle) :
    runOps (bs.map .crcByte) s = .next { s with crc := crcAbsorb s.crc bs } := by
  induction bs generalizing s with
  | nil => rfl
  | cons b bs ih =>
    simp only [List.map_cons, runOps, exec_crcByte_of_idle h hph b]
    exact ih (s := { s with crc := crcUpdate s.crc b }) h hph

/-- The pseudo-operation `CRC32 p` (R77) leaves the accumulator of `crc32 p`. -/
theorem runOps_crcOps (bs : List Byte) (h : s.ecause = .noFault) (hph : s.ph = .idle) :
    runOps (crcOps bs) s = .next { s with crc := crcAbsorb crcInitValue bs } := by
  simp only [crcOps, runOps, exec_crcInit_of_idle h hph]
  exact runOps_crcBytes (s := { s with crc := crcInitValue }) bs h hph

end

/-- The final XOR undoes itself (R103). -/
theorem crcFinal_crcFinal (c : Word32) : crcFinal (crcFinal c) = c := by
  rw [crcFinal, crcFinal, BitVec.xor_assoc, BitVec.xor_self, BitVec.xor_zero]

/-- Settles O24: the run by `runOps_crcOps`; `CRCSUM` is the final XOR of what it leaves, `CRCACC` that undone. -/
theorem hostChecksumIsCrc32 : Obligations.HostChecksumIsCrc32 :=
  fun bs _ h hph => ⟨_, runOps_crcOps bs h hph, rfl, (crcFinal_crcFinal _).symm, rfl⟩

/-- Settles O22: the word by its code, the effect by the three cases of `CRC.INIT`. -/
theorem crcInitStartsAChecksum : Obligations.CrcInitStartsAChecksum :=
  ⟨fun axisInW _ => decodeCommand_of_code axisInW, fun _ => exec_crcInit_of_idle, fun _ => exec_crcInit_of_opened,
    fun _ => exec_crcInit_of_halted⟩

/-- An operand field is the word moved down past its code; format B's has 8 bits, 11:4 (R62). -/
theorem field_operand (n : Nat) (w : CmdWord) : field n 4 w = BitVec.ofNat n (w / 16) := by
  rw [field, Nat.shiftRight_eq_div_pow]

/-- Settles O23: the word by its code and operand, the effect by the three cases of `CRC.BYTE`. -/
theorem crcByteAbsorbsOneByte : Obligations.CrcByteAbsorbsOneByte :=
  ⟨fun axisInW w h => (decodeCommand_of_code axisInW h).trans (congrArg Instr.crcByte (field_operand 8 w)),
    fun b _ h hph => exec_crcByte_of_idle h hph b, fun b _ h hph => exec_crcByte_of_opened h hph b,
    fun b _ h => exec_crcByte_of_halted h b, by decide⟩

end Sys2Proof.Machine

/-! The byte-stuffing framer FRM, 42_framer.md: what stuffing does to bytes (R121, R122), what a frame looks like and how
it is undone (R128, R129), the three operations (R124 to R126), and the frames that operations and runs emit (R127, R130). -/

namespace Sys2Proof.Machine

/-! ### Stuffing -/

/-- Stuffing one byte is stuffing the string of it alone, so `byteEnd_notMem_escaped` applies (R121). -/
theorem byteEnd_notMem_esc (b : Byte) : byteEnd ∉ esc b := by
  have h := byteEnd_notMem_escaped [b]
  rwa [escaped_cons, escaped_nil, List.append_nil] at h

theorem one_le_esc_length (b : Byte) : 1 ≤ (esc b).length := by
  rcases esc_cases b with ⟨-, h⟩ | ⟨-, h⟩ | ⟨-, -, h⟩ <;> simp [h]

/-- Stuffing drops no byte (R122). -/
theorem length_le_escaped_length (s : List Byte) : s.length ≤ (escaped s).length := by
  induction s with
  | nil => simp
  | cons b s ih =>
    have hb := one_le_esc_length b
    simp only [escaped_cons, List.length_append, List.length_cons]
    omega

/-- Bytes that need no stuffing are left as they are (R121). -/
theorem escaped_eq_self {s : List Byte} (h : ∀ b ∈ s, b ≠ byteEnd ∧ b ≠ byteEsc) : escaped s = s := by
  induction s with
  | nil => rfl
  | cons b s ih =>
    obtain ⟨⟨hend, hesc⟩, hs⟩ := List.forall_mem_cons.mp h
    rw [escaped_cons, esc_of_ne hend hesc, ih hs, List.singleton_append]

theorem byteEsc_mem_esc {b : Byte} (h : b = byteEnd ∨ b = byteEsc) : byteEsc ∈ esc b := by
  rcases h with rfl | rfl <;> decide

/-- A byte that needs stuffing leaves its ESC (R128). -/
theorem byteEsc_mem_escaped {s : List Byte} (h : ∃ b ∈ s, b = byteEnd ∨ b = byteEsc) : byteEsc ∈ escaped s := by
  obtain ⟨b, hb, hspecial⟩ := h
  exact List.mem_flatMap.mpr ⟨b, hb, byteEsc_mem_esc hspecial⟩

/-- Settles O17: the three cases of `esc`, and for strings the lemmas above. -/
theorem escapingIsByteByByte : Obligations.EscapingIsByteByByte :=
  ⟨rfl, rfl, rfl, rfl, fun _ => esc_of_ne, byteEnd_notMem_esc, fun _ => List.flatMap_def, rfl,
    escaped_append, fun s => ⟨length_le_escaped_length s, escaped_length_le s⟩, rfl, rfl⟩

/-! ### Well-formed escapes -/

/-- Every ESC is followed by ESC_END or ESC_ESC (R128). -/
def EscapesPaired (u : List Byte) : Prop :=
  ∀ a c, u = a ++ byteEsc :: c → ∃ e c', c = e :: c' ∧ (e = byteEscEnd ∨ e = byteEscEsc)

theorem escapesPaired_nil : EscapesPaired [] := fun a _ h => by simp at h

theorem EscapesPaired.cons {b : Byte} {u : List Byte} (hb : b ≠ byteEsc) (hu : EscapesPaired u) :
    EscapesPaired (b :: u) := by
  intro a c h
  cases a with
  | nil => exact absurd (List.cons.inj h).1 hb
  | cons _ a => exact hu a c (List.cons.inj h).2

theorem EscapesPaired.cons_escape {e : Byte} {u : List Byte} (he : e = byteEscEnd ∨ e = byteEscEsc)
    (hu : EscapesPaired u) : EscapesPaired (byteEsc :: e :: u) := by
  intro a c h
  cases a with
  | nil => exact ⟨e, u, (List.cons.inj h).2.symm, he⟩
  | cons _ a =>
    have hne : e ≠ byteEsc := by rcases he with rfl | rfl <;> decide
    exact hu.cons hne a c (List.cons.inj h).2

theorem escapesPaired_escaped (s : List Byte) : EscapesPaired (escaped s) := by
  induction s with
  | nil => exact escapesPaired_nil
  | cons b s ih =>
    rw [escaped_cons]
    rcases esc_cases b with ⟨-, hesc⟩ | ⟨-, hesc⟩ | ⟨-, hne, hesc⟩ <;> rw [hesc]
    · exact ih.cons_escape (.inl rfl)
    · exact ih.cons_escape (.inr rfl)
    · exact ih.cons hne

/-! ### Frames and their inverse, over any checksum function -/

section
variable (crc : List Byte → Word32) (p : List Byte)

/-- A frame is two ENDs around one stuffed string, payload and checksum (R123). -/
theorem frameWith_eq : frameWith crc p = [byteEnd] ++ escaped (p ++ le32 (crc p)) ++ [byteEnd] := by
  simp [frameWith, escaped_append]

theorem frameWith_length : (frameWith crc p).length = (escaped (p ++ le32 (crc p))).length + 2 := by
  simp [frameWith_eq]

theorem stripEndMarkers_frameWith : stripEndMarkers (frameWith crc p) = some (escaped (p ++ le32 (crc p))) := by
  have hend := byteEnd_notMem_escaped (p ++ le32 (crc p))
  rw [frameWith_eq, List.append_assoc, List.singleton_append, stripEndMarkers]
  simp [hend]

theorem unescape_stripEndMarkers_frameWith :
    (stripEndMarkers (frameWith crc p)).bind unescape = some (p ++ le32 (crc p)) := by
  rw [stripEndMarkers_frameWith, Option.bind_some, unescape_escaped]

theorem deframeOneWith_frameWith : deframeOneWith crc (frameWith crc p) = some p := by
  rw [deframeOneWith, unescape_stripEndMarkers_frameWith, Option.bind_some, checkWith_append]

end

/-- A frame determines its payload, since `deframe_one` recovers it (R128). -/
theorem frameWith_injective (crc : List Byte → Word32) : Function.Injective (frameWith crc) := by
  intro p q h
  have hp := deframeOneWith_frameWith crc p
  rw [h, deframeOneWith_frameWith crc q] at hp
  exact (Option.some.inj hp).symm

/-- Settles O18: a frame is one stuffed string between two ENDs (`frameWith_eq`), so each clause is one about
`escaped`; injectivity is `frameWith_injective`. -/
theorem framesAreDelimitedAndBounded : Obligations.FramesAreDelimitedAndBounded := by
  refine ⟨by decide +kernel, fun crc p => ?_⟩
  have hlen : (p ++ le32 (crc p)).length = p.length + 4 := by simp
  have hlower := length_le_escaped_length (p ++ le32 (crc p))
  have hupper := escaped_length_le (p ++ le32 (crc p))
  refine ⟨⟨_, frameWith_eq crc p, byteEnd_notMem_escaped _, escapesPaired_escaped _⟩, ?_, ?_, fun hplain => ?_,
    fun hspecial => ?_, fun q h => frameWith_injective crc h⟩
  · rw [frameWith_length]
    omega
  · rw [frameWith_length]
    omega
  · rw [frameWith_length, escaped_eq_self hplain, hlen]
  · rw [frameWith_eq]
    exact List.mem_append_left _ (List.mem_append_right _ (byteEsc_mem_escaped hspecial))

/-- Settles O19: `unescape` undoes stuffing between the ENDs, and the checksum compares equal. -/
theorem unescapeRecoversPayloadAndChecksum : Obligations.UnescapeRecoversPayloadAndChecksum :=
  ⟨unescape_stripEndMarkers_frameWith, checkWith_append crc32⟩

/-! ### The three operations -/

section
variable {s : State}

theorem exec_frmOpen_of_idle (h : s.ecause = .noFault) (hmode : s.mode = .stream) (hph : s.ph = .idle) :
    exec .frmOpen s
      = .next { s with offer := s.offer ++ [dataByte byteEnd], crc := crcInitValue, ph := .opened } := by
  rw [exec, execFrmOpen, State.unlessHalted_of_noFault h, if_neg (by simp [hmode]), if_neg (by simp [hph])]
  rfl

theorem exec_frmOpen_of_opened (h : s.ecause = .noFault) (hmode : s.mode = .stream) (hph : s.ph = .opened) :
    exec .frmOpen s = .next (s.opFault .seq) := by
  rw [exec, execFrmOpen, State.unlessHalted_of_noFault h, if_neg (by simp [hmode]), if_pos hph, raiseOpFault]

theorem exec_frmData_of_opened (h : s.ecause = .noFault) (hmode : s.mode = .stream) (hph : s.ph = .opened) (b : Byte) :
    exec (.frmData b) s
      = .next { s with crc := crcUpdate s.crc b, offer := s.offer ++ (esc b).map dataByte } := by
  rw [exec, execFrmData, State.unlessHalted_of_noFault h, if_neg (by simp [hmode]), if_neg (by simp [hph]),
    State.emitAll_eq]

theorem exec_frmData_of_idle (h : s.ecause = .noFault) (hmode : s.mode = .stream) (hph : s.ph = .idle) (b : Byte) :
    exec (.frmData b) s = .next (s.opFault .seq) := by
  rw [exec, execFrmData, State.unlessHalted_of_noFault h, if_neg (by simp [hmode]), if_pos hph, raiseOpFault]

theorem exec_frmClose_of_opened (h : s.ecause = .noFault) (hmode : s.mode = .stream) (hph : s.ph = .opened) :
    exec .frmClose s = .next { s with
      offer := s.offer ++ (escaped (le32 (crcFinal s.crc))).map dataByte ++ [{ byte := byteEnd, last := true }]
      ph := .idle } := by
  rw [exec, execFrmClose, State.unlessHalted_of_noFault h, if_neg (by simp [hmode]), if_neg (by simp [hph]),
    State.emitTrailer_eq]
  rfl

theorem exec_frmClose_of_idle (h : s.ecause = .noFault) (hmode : s.mode = .stream) (hph : s.ph = .idle) :
    exec .frmClose s = .next (s.opFault .seq) := by
  rw [exec, execFrmClose, State.unlessHalted_of_noFault h, if_neg (by simp [hmode]), if_pos hph, raiseOpFault]

/-- In DGRAM mode there is no framer: its operations raise MODE in either phase (R124 to R126). -/
theorem exec_framer_of_dgram {i : Instr} (hi : i = .frmOpen ∨ (∃ b, i = .frmData b) ∨ i = .frmClose)
    (h : s.ecause = .noFault) (hmode : s.mode = .dgram) : exec i s = .next (s.opFault .mode) := by
  rcases hi with rfl | ⟨b, rfl⟩ | rfl
  · rw [exec, execFrmOpen, State.unlessHalted_of_noFault h, if_pos hmode, raiseOpFault]
  · rw [exec, execFrmData, State.unlessHalted_of_noFault h, if_pos hmode, raiseOpFault]
  · rw [exec, execFrmClose, State.unlessHalted_of_noFault h, if_pos hmode, raiseOpFault]

/-- A halted block refuses the framer's operations (R173). -/
theorem exec_framer_of_halted {i : Instr} (hi : i = .frmOpen ∨ (∃ b, i = .frmData b) ∨ i = .frmClose)
    (h : s.ecause ≠ .noFault) : exec i s = .next s := by
  rcases hi with rfl | ⟨b, rfl⟩ | rfl
  · rw [exec, execFrmOpen, State.unlessHalted_of_halted h]
  · rw [exec, execFrmData, State.unlessHalted_of_halted h]
  · rw [exec, execFrmClose, State.unlessHalted_of_halted h]

end

/-- Settles O25: the word by its code, the effect by the four cases of `FRM.OPEN`. -/
theorem frmOpenStartsAFrame : Obligations.FrmOpenStartsAFrame :=
  ⟨fun axisInW _ => decodeCommand_of_code axisInW, fun _ => exec_frmOpen_of_idle,
    fun _ => exec_framer_of_dgram (.inl rfl), fun _ => exec_frmOpen_of_opened, fun _ => exec_framer_of_halted (.inl rfl)⟩

/-- Settles O26: the word by its code and operand, the effect by the four cases of `FRM.DATA`. -/
theorem frmDataStuffsOneByte : Obligations.FrmDataStuffsOneByte :=
  ⟨fun axisInW w h => (decodeCommand_of_code axisInW h).trans (congrArg Instr.frmData (field_operand 8 w)),
    fun b _ h hmode hph => exec_frmData_of_opened h hmode hph b, fun b _ => exec_framer_of_dgram (.inr (.inl ⟨b, rfl⟩)),
    fun b _ h hmode hph => exec_frmData_of_idle h hmode hph b, fun b _ => exec_framer_of_halted (.inr (.inl ⟨b, rfl⟩)),
    by decide +kernel⟩

/-- Settles O27: the word by its code, the effect by the four cases of `FRM.CLOSE`. -/
theorem frmCloseEndsTheFrame : Obligations.FrmCloseEndsTheFrame :=
  ⟨fun axisInW _ => decodeCommand_of_code axisInW, fun _ => exec_frmClose_of_opened,
    fun _ => exec_framer_of_dgram (.inr (.inr rfl)), fun _ => exec_frmClose_of_idle,
    fun _ => exec_framer_of_halted (.inr (.inr rfl))⟩

/-! ### A frame in the making -/

/-- What an open frame has emitted once `q` has been given to it: the opening END and `q` stuffed (R124, R125). -/
def openedFrame (q : List Byte) : List OutByte := ([byteEnd] ++ escaped q).map dataByte

theorem openedFrame_nil : openedFrame [] = [dataByte byteEnd] := rfl

theorem openedFrame_concat (q : List Byte) (b : Byte) :
    openedFrame (q ++ [b]) = openedFrame q ++ (esc b).map dataByte := by
  simp [openedFrame, escaped_append]

/-- The trailer of the accumulator of `q` and the closing END complete the frame of `q` (R123, R126). -/
theorem openedFrame_close (q : List Byte) :
    openedFrame q ++ withLast (escaped (le32 (crcFinal (crcAbsorb crcInitValue q))) ++ [byteEnd])
      = withLast (frame q) := by
  have hframe : frame q = ([byteEnd] ++ escaped q ++ escaped (le32 (crc32 q))) ++ [byteEnd] := rfl
  rw [hframe, withLast_concat, withLast_concat, ← List.append_assoc, List.map_append (l₂ := escaped _)]
  rfl

/-! ### The frame by operations -/

section
variable {s : State}

/-- The state inside a frame that was opened in `s` and has been given `q` (R124, R125). -/
def State.midFrame (s : State) (q : List Byte) : State :=
  { s with offer := s.offer ++ openedFrame q, crc := crcAbsorb crcInitValue q, ph := .opened }

theorem exec_frmOpen_midFrame (h : s.ecause = .noFault) (hmode : s.mode = .stream) (hph : s.ph = .idle) :
    exec .frmOpen s = .next (s.midFrame []) :=
  exec_frmOpen_of_idle h hmode hph

theorem exec_frmData_midFrame (h : s.ecause = .noFault) (hmode : s.mode = .stream) (q : List Byte) (b : Byte) :
    exec (.frmData b) (s.midFrame q) = .next (s.midFrame (q ++ [b])) := by
  rw [exec_frmData_of_opened (s := s.midFrame q) h hmode rfl]
  simp [State.midFrame, openedFrame_concat, crcAbsorb]

theorem runOps_frmData_midFrame (h : s.ecause = .noFault) (hmode : s.mode = .stream) (p q : List Byte) :
    runOps (p.map .frmData) (s.midFrame q) = .next (s.midFrame (q ++ p)) := by
  induction p generalizing q with
  | nil => rw [List.append_nil, List.map_nil, runOps]
  | cons b p ih =>
    simp only [List.map_cons, runOps, exec_frmData_midFrame h hmode, ih, List.append_assoc, List.singleton_append]

theorem exec_frmClose_midFrame (h : s.ecause = .noFault) (hmode : s.mode = .stream) (hph : s.ph = .idle)
    (p : List Byte) :
    exec .frmClose (s.midFrame p)
      = .next { s with offer := s.offer ++ withLast (frame p), crc := crcAbsorb crcInitValue p } := by
  rw [exec_frmClose_of_opened (s := s.midFrame p) h hmode rfl, ← openedFrame_close, withLast_concat, ← hph]
  simp [State.midFrame]

/-- The pseudo-operation `FRAME p` (R77) emits the frame of `p`, leaves its accumulator in `CRC`, and changes nothing
else (R127). -/
theorem runOps_frameOps (p : List Byte) (h : s.ecause = .noFault) (hmode : s.mode = .stream) (hph : s.ph = .idle) :
    runOps (frameOps p) s
      = .next { s with offer := s.offer ++ withLast (frame p), crc := crcAbsorb crcInitValue p } := by
  rw [frameOps, List.append_assoc, List.singleton_append]
  simp only [runOps, exec_frmOpen_midFrame h hmode hph]
  rw [runOps_append (runOps_frmData_midFrame h hmode p []), List.nil_append]
  simp only [runOps, exec_frmClose_midFrame h hmode hph]

end

/-- Settles O28: the run by `runOps_frameOps`; the accumulator is the checksum with the final XOR undone. -/
theorem frameOperationsEmitTheFrame : Obligations.FrameOperationsEmitTheFrame :=
  fun p _ hmode hph h =>
    ⟨_, runOps_frameOps p h hmode hph, (List.append_assoc _ _ _).symm, hph, h, (crcFinal_crcFinal _).symm, rfl⟩

/-! ### STREAM mode emits whole frames -/

/-- What an operation in STREAM mode does to the phase, the accumulator and OUT: nothing that an open frame notices, one
of the three steps of a frame, or a whole frame (R124 to R126, R141). -/
inductive FramerMove (s t : State) : Prop where
  | quiet : t.ph = s.ph → (s.ph = .opened → t.crc = s.crc) → t.emitted = s.emitted → FramerMove s t
  | opening : s.ph = .idle → t.ph = .opened → t.crc = crcInitValue →
      t.emitted = s.emitted ++ [dataByte byteEnd] → FramerMove s t
  | data (b : Byte) : s.ph = .opened → t.ph = .opened → t.crc = crcUpdate s.crc b →
      t.emitted = s.emitted ++ (esc b).map dataByte → FramerMove s t
  | closing : s.ph = .opened → t.ph = .idle →
      t.emitted = s.emitted ++ withLast (escaped (le32 (crcFinal s.crc)) ++ [byteEnd]) → FramerMove s t
  | framed (r : List Byte) : s.ph = .idle → t.ph = .idle → t.emitted = s.emitted ++ withLast (frame r) →
      FramerMove s t

section
variable {i : Instr} {s t : State}

theorem FramerMove.refl (s : State) : FramerMove s s := .quiet rfl (fun _ => rfl) rfl

theorem FramerMove.opFault (s : State) (c : Cause) : FramerMove s (s.opFault c) := .quiet rfl (fun _ => rfl) rfl

/-- Bytes put on offer are emitted after those before them. -/
theorem emitted_append {bytes : List OutByte} (hout : t.out = s.out) (hoffer : t.offer = s.offer ++ bytes) :
    t.emitted = s.emitted ++ bytes := by
  rw [State.emitted, State.emitted, hout, hoffer, List.append_assoc]

theorem exec_command_framerMove (hc : i.isCommand = true) (hmode : s.mode = .stream) (h : exec i s = .next t) :
    FramerMove s t := by
  cases i with
  | crcInit =>
    rcases execCrcInit_cases h with ⟨-, rfl⟩ | ⟨-, -, rfl⟩ | ⟨-, hidle, rfl⟩
    · exact .refl t
    · exact .opFault s _
    · exact .quiet rfl (fun hopened => by simp [hidle] at hopened) rfl
  | crcByte b =>
    rcases execCrcByte_cases h with ⟨-, rfl⟩ | ⟨-, -, rfl⟩ | ⟨-, hidle, rfl⟩
    · exact .refl t
    · exact .opFault s _
    · exact .quiet rfl (fun hopened => by simp [hidle] at hopened) rfl
  | rdsr n =>
    rcases execRdsr_cases h with ⟨v, -, rfl⟩ | ⟨-, -, rfl⟩ | ⟨-, -, rfl⟩
    · exact .quiet rfl (fun _ => rfl) rfl
    · exact .refl t
    · exact .opFault s _
  | frmOpen =>
    rcases execFrmOpen_cases h with ⟨-, rfl⟩ | ⟨-, -, rfl⟩ | ⟨-, -, -, rfl⟩ | ⟨-, -, hidle, rfl⟩
    · exact .refl t
    · exact .opFault s _
    · exact .opFault s _
    · exact .opening hidle rfl rfl (emitted_append rfl rfl)
  | frmData b =>
    rcases execFrmData_cases h with ⟨-, rfl⟩ | ⟨-, -, rfl⟩ | ⟨-, -, -, rfl⟩ | ⟨-, -, hopened, rfl⟩
    · exact .refl t
    · exact .opFault s _
    · exact .opFault s _
    · exact .data b hopened hopened rfl (emitted_append rfl rfl)
  | frmClose =>
    rcases execFrmClose_cases h with ⟨-, rfl⟩ | ⟨-, -, rfl⟩ | ⟨-, -, -, rfl⟩ | ⟨-, -, hopened, rfl⟩
    · exact .refl t
    · exact .opFault s _
    · exact .opFault s _
    · exact .closing hopened rfl (emitted_append rfl rfl)
  | encMouse m =>
    rcases execEncMouse_cases h with ⟨-, rfl⟩ | ⟨-, rfl⟩
    · exact .refl t
    · exact .quiet rfl (fun _ => rfl) rfl
  | encGpad g =>
    rcases execEncGpad_cases h with ⟨-, rfl⟩ | ⟨-, rfl⟩
    · exact .refl t
    · exact .quiet rfl (fun _ => rfl) rfl
  | send =>
    rcases execSend_cases h with ⟨-, rfl⟩ | ⟨-, -, rfl⟩ | ⟨-, -, -, rfl⟩ | ⟨-, -, -, hdgram, rfl⟩
      | ⟨-, hidle, -, -, rfl⟩
    · exact .refl t
    · exact .opFault s _
    · exact .opFault s _
    · simp [hmode] at hdgram
    · exact .framed s.report hidle hidle (emitted_append rfl rfl)
  | reserved0 | reserved7 | reservedB | reservedC | reservedD | reservedE | reservedF =>
    rcases illegalCode_cases h with ⟨-, rfl⟩ | ⟨-, rfl⟩
    · exact .refl t
    · exact .opFault s _
  | mouseReport _ | gamepadReport _ | symEnd | symLit _ | symEend | symEesc => simp [Instr.isCommand] at hc

end

/-- Frames on OUT, one after the other, `last` on the final byte of each alone (R45). -/
def framesOut (ps : List (List Byte)) : List OutByte := (ps.map fun p => withLast (frame p)).flatten

theorem framesOut_concat (ps : List (List Byte)) (p : List Byte) :
    framesOut (ps ++ [p]) = framesOut ps ++ withLast (frame p) := by
  simp [framesOut]

/-- The invariant of a STREAM run: since OUT was `start`, whole frames have been emitted, and, while a frame is open, the
beginning of one more, whose accumulator `CRC` holds (R127). -/
def State.FramesSince (start : List OutByte) (s : State) : Prop :=
  match s.ph with
  | .idle => ∃ ps, s.emitted = start ++ framesOut ps
  | .opened => ∃ ps q, s.emitted = start ++ framesOut ps ++ openedFrame q ∧ s.crc = crcAbsorb crcInitValue q

section
variable {start : List OutByte} {s t : State}

theorem State.framesSince_of_idle (h : s.ph = .idle) :
    s.FramesSince start ↔ ∃ ps, s.emitted = start ++ framesOut ps := by
  rw [State.FramesSince, h]

theorem State.framesSince_of_opened (h : s.ph = .opened) :
    s.FramesSince start ↔
      ∃ ps q, s.emitted = start ++ framesOut ps ++ openedFrame q ∧ s.crc = crcAbsorb crcInitValue q := by
  rw [State.FramesSince, h]

theorem FramerMove.keeps_framesSince (hmove : FramerMove s t) (hs : s.FramesSince start) : t.FramesSince start := by
  cases hmove with
  | quiet hph hcrc hout =>
    cases hs' : s.ph with
    | idle =>
      rw [State.framesSince_of_idle hs'] at hs
      rwa [State.framesSince_of_idle (hph.trans hs'), hout]
    | opened =>
      rw [State.framesSince_of_opened hs'] at hs
      rwa [State.framesSince_of_opened (hph.trans hs'), hout, hcrc hs']
  | opening hidle hopened hcrc hout =>
    obtain ⟨ps, hps⟩ := (State.framesSince_of_idle hidle).mp hs
    exact (State.framesSince_of_opened hopened).mpr ⟨ps, [], by rw [hout, hps, openedFrame_nil], hcrc⟩
  | data b hopened hopened' hcrc hout =>
    obtain ⟨ps, q, hps, hq⟩ := (State.framesSince_of_opened hopened).mp hs
    refine (State.framesSince_of_opened hopened').mpr ⟨ps, q ++ [b], ?_, ?_⟩
    · rw [hout, hps, List.append_assoc, openedFrame_concat]
    · rw [hcrc, hq, crcAbsorb_append]
      rfl
  | closing hopened hidle hout =>
    obtain ⟨ps, q, hps, hq⟩ := (State.framesSince_of_opened hopened).mp hs
    refine (State.framesSince_of_idle hidle).mpr ⟨ps ++ [q], ?_⟩
    rw [hout, hps, hq, List.append_assoc, openedFrame_close, List.append_assoc, framesOut_concat]
  | framed r hidle hidle' hout =>
    obtain ⟨ps, hps⟩ := (State.framesSince_of_idle hidle).mp hs
    refine (State.framesSince_of_idle hidle').mpr ⟨ps ++ [r], ?_⟩
    rw [hout, hps, List.append_assoc, framesOut_concat]

/-- The induction over the operations of a STREAM run: each is a `FramerMove` and keeps the mode. -/
theorem runOps_keeps_framesSince {is : List Instr} (hc : ∀ i ∈ is, i.isCommand = true) (hmode : s.mode = .stream)
    (hs : s.FramesSince start) (h : runOps is s = .next t) : t.FramesSince start := by
  induction is generalizing s with
  | nil =>
    cases h
    exact hs
  | cons i is ih =>
    obtain ⟨hi, his⟩ := List.forall_mem_cons.mp hc
    obtain ⟨u, hu⟩ := exec_exists_next i s
    simp only [runOps, hu] at h
    have humode : u.mode = .stream := (exec_command_config hi hu).1.trans hmode
    exact ih his humode ((exec_command_framerMove hi hmode hu).keeps_framesSince hs) h

end

/-- Settles O57: `State.FramesSince` holds at the start with no frame, is kept by the run, and at an IDLE end is the
statement. -/
theorem streamRunsEmitWholeFrames : Obligations.StreamRunsEmitWholeFrames := by
  intro is s t hc hmode hph h hidle
  have hstart : s.FramesSince s.emitted :=
    (State.framesSince_of_idle hph).mpr ⟨[], (List.append_nil s.emitted).symm⟩
  exact (State.framesSince_of_idle hidle).mp (runOps_keeps_framesSince hc hmode hstart h)

end Sys2Proof.Machine

/-! The transport-class send and the status read, 43_send_and_status.md: `SEND` and its equality with the frame operations
(R141), `RDSR` (R142), and the legality matrix (R143). -/

namespace Sys2Proof.Machine

/-! ### SEND -/

section
variable {s : State}

/-- An open frame raises SEQ, whether or not a report is there (R141, R174). -/
theorem exec_send_of_opened (h : s.ecause = .noFault) (hph : s.ph = .opened) :
    exec .send s = .next (s.opFault .seq) := by
  rw [exec, execSend, State.unlessHalted_of_noFault h, if_pos hph, raiseOpFault]

theorem exec_send_of_empty (h : s.ecause = .noFault) (hph : s.ph = .idle) (hrlen : s.rlen = .empty) :
    exec .send s = .next (s.opFault .noReport) := by
  rw [exec, execSend, State.unlessHalted_of_noFault h, if_neg (by simp [hph]), if_pos hrlen, raiseOpFault]

theorem exec_send_of_halted (h : s.ecause ≠ .noFault) : exec .send s = .next s := by
  rw [exec, execSend, State.unlessHalted_of_halted h]

end

/-- The accumulator behind a checksum is the checksum with the final XOR undone (R103, R104). -/
theorem crc32_xor_ones (p : List Byte) : crc32 p ^^^ 0xFFFFFFFF = crcAbsorb crcInitValue p :=
  crcFinal_crcFinal _

/-- Settles O32: the word by its code, the effect by the four cases of `SEND`. -/
theorem sendHandsOverTheReport : Obligations.SendHandsOverTheReport := by
  refine ⟨fun axisInW _ => decodeCommand_of_code axisInW, fun s h hph hrlen => ?_, fun _ => exec_send_of_opened,
    fun _ => exec_send_of_empty, fun _ => exec_send_of_halted⟩
  rw [crc32_xor_ones]
  exact exec_send_of_report h hph hrlen

/-- Settles O33: both sides put the frame of the report on offer and leave its accumulator in `CRC`
(`exec_send_of_report`, `runOps_frameOps`). -/
theorem streamSendIsTheFrameOperations : Obligations.StreamSendIsTheFrameOperations := by
  intro s h hmode hph hrlen
  rw [exec_send_of_report h hph hrlen, runOps_frameOps s.report h hmode hph, if_pos hmode, hmode, send]

/-! ### RDSR -/

/-- A defined register is returned in every state, halted or not, with no other effect (R142, R173). -/
theorem exec_rdsr_of_register {s : State} {n : BitVec 4} {v : ResWord} (hv : s.statusReg n = some v) :
    exec (.rdsr n) s = .next (s.result v) := by
  simp only [exec, execRdsr, hv]

theorem toNat_bit8 (b : Bool) : (bit8 b).toNat = b.toNat := by
  cases b <;> rfl

/-- A field moved up past the bits below it is added to them. -/
theorem or_shiftLeft_eq_add {a n : Nat} (ha : a < 2 ^ n) (b : Nat) : a ||| b <<< n = a + 2 ^ n * b := by
  rw [Nat.or_comm, ← Nat.shiftLeft_add_eq_or_of_lt ha, Nat.shiftLeft_eq, Nat.mul_comm, Nat.add_comm]

/-- `STATUS` as a number: its fields do not overlap, so they add up (R30). -/
theorem State.toNat_statusWord (s : State) :
    s.statusWord.toNat = s.err.toNat + 2 * s.ph.code.toNat + 16 * s.rlen.toNat := by
  have herr : s.err.toNat < 2 ^ 1 := s.err.toNat_lt
  have hph : s.ph.code.toNat < 2 ^ 1 := s.ph.code.isLt
  have hrlen : s.rlen.toNat < 2 ^ 4 := s.rlen.toNat_code ▸ s.rlen.code.isLt
  have hph8 : (s.ph.code.setWidth 8 <<< 1).toNat = s.ph.code.toNat <<< 1 := by
    simp only [BitVec.toNat_shiftLeft, BitVec.toNat_setWidth, Nat.shiftLeft_eq]
    omega
  have hrlen8 : (s.rlen.code.setWidth 8 <<< 4).toNat = s.rlen.toNat <<< 4 := by
    simp only [BitVec.toNat_shiftLeft, BitVec.toNat_setWidth, Nat.shiftLeft_eq, ReportLen.toNat_code]
    omega
  rw [State.statusWord, BitVec.toNat_or, BitVec.toNat_or, toNat_bit8, hph8, hrlen8, or_shiftLeft_eq_add herr,
    or_shiftLeft_eq_add (by omega)]
  omega

theorem State.err_toNat (s : State) : s.err.toNat = if s.ecause = .noFault then 0 else 1 := by
  by_cases h : s.ecause = .noFault <;> simp [State.err, h]

theorem State.statusReg_status (s : State) :
    s.statusReg 1 = some (BitVec.ofNat 104
      ((if s.ecause = .noFault then 0 else 1) + 2 * s.ph.code.toNat + 16 * s.rlen.toNat)) := by
  have hreg : s.statusReg 1 = some (s.statusWord.setWidth 104) := rfl
  rw [hreg, ← BitVec.ofNat_toNat, State.toNat_statusWord, State.err_toNat]

/-- `CFG` widened twice is the code of `MODE` widened (R29). -/
theorem State.statusReg_cfg (s : State) : s.statusReg 0 = some (s.mode.code.setWidth 104) :=
  congrArg some (BitVec.setWidth_setWidth (by decide))

/-- The `ECAUSE` register widened twice is the code of `ECAUSE` widened (R31). -/
theorem State.statusReg_ecause (s : State) : s.statusReg 2 = some (s.ecause.code.setWidth 104) :=
  congrArg some (BitVec.setWidth_setWidth (by decide))

/-- The first byte packed is the lowest (R34). -/
theorem packLe_cons_low (b : Byte) (rest : List Byte) : (packLe (b :: rest)).extractLsb' 0 8 = b := by
  apply BitVec.eq_of_getLsbD_eq
  intro i hi
  have h104 : i < 104 := by omega
  simp [packLe, hi, h104]

/-- The bytes after the first are eight bits further up (R34). -/
theorem packLe_cons_high (b : Byte) (rest : List Byte) {k : Nat} (hk : k + 1 < 13) :
    (packLe (b :: rest)).extractLsb' (8 * (k + 1)) 8 = (packLe rest).extractLsb' (8 * k) 8 := by
  apply BitVec.eq_of_getLsbD_eq
  intro i hi
  have h104 : 8 * (k + 1) + i < 104 := by omega
  have h8 : ¬ 8 * (k + 1) + i < 8 := by omega
  have hb : b.getLsbD (8 * (k + 1) + i) = false := BitVec.getLsbD_of_ge _ _ (by omega)
  have hsub : 8 * (k + 1) + i - 8 = 8 * k + i := by omega
  simp [packLe, hi, h104, h8, hb, hsub, -BitVec.getLsbD_eq_getElem]

/-- Byte `k` of a packed list is its element `k`, as far as the result bus reaches (R34, R142). -/
theorem extractLsb'_packLe (bs : List Byte) {k : Nat} (hbus : k < 13) (hk : k < bs.length) :
    (packLe bs).extractLsb' (8 * k) 8 = bs[k] := by
  induction bs generalizing k with
  | nil => simp at hk
  | cons b rest ih =>
    cases k with
    | zero => exact packLe_cons_low b rest
    | succ k =>
      rw [packLe_cons_high b rest hbus, List.getElem_cons_succ]
      exact ih (by omega) (Nat.lt_of_succ_lt_succ hk)

/-- Settles O34: the word by its code and operand, the six registers by `exec_rdsr_of_register`, the reserved numbers by
`exec_reserved`. -/
theorem rdsrReturnsTheRegister : Obligations.RdsrReturnsTheRegister := by
  refine ⟨fun axisInW w h => (decodeCommand_of_code axisInW h).trans (congrArg Instr.rdsr (field_operand 4 w)),
    fun s => exec_rdsr_of_register s.statusReg_cfg, fun s => exec_rdsr_of_register s.statusReg_status,
    fun s => exec_rdsr_of_register s.statusReg_ecause, fun s => exec_rdsr_of_register rfl,
    fun s => exec_rdsr_of_register rfl, fun s => ⟨s.rbv, exec_rdsr_of_register rfl, fun k hk => ?_⟩,
    fun n s hn => ?_, fun n s hn => ?_⟩
  · rw [State.rbv, extractLsb'_packLe s.rb.toList hk (by simpa using hk), Vector.getElem_toList]
  · rw [exec_reserved (.inr ⟨n, hn, rfl⟩)]
    exact (illegalCode_eq s).1
  · rw [exec_reserved (.inr ⟨n, hn, rfl⟩)]
    exact (illegalCode_eq s).2

end Sys2Proof.Machine

/-! The legality matrix (43_send_and_status.md R143): the column of a state, and each row against the cases of its
operation. -/

namespace Sys2Proof.Machine

/-- What a cell of the matrix says of an operation in a state (R143, R172, R173). -/
def Verdict.Holds (i : Instr) (s : State) : Verdict → Prop
  | .refused => exec i s = .next s
  | .raises c => exec i s = .next { s with ecause := c }
  | .ok => ∃ t, exec i s = .next t ∧ t.ecause = s.ecause

section
variable {i : Instr} {s : State}

/-! ### The column of a state -/

theorem State.column_of_halted (h : s.ecause ≠ .noFault) : s.column = .halted := by
  simp [State.column, State.err, h]

theorem State.column_of_streamIdle (h : s.ecause = .noFault) (hmode : s.mode = .stream) (hph : s.ph = .idle) :
    s.column = .streamIdle := by
  simp [State.column, State.err, h, hmode, hph]

theorem State.column_of_streamOpen (h : s.ecause = .noFault) (hmode : s.mode = .stream) (hph : s.ph = .opened) :
    s.column = .streamOpen := by
  simp [State.column, State.err, h, hmode, hph]

theorem State.column_of_dgram (h : s.ecause = .noFault) (hmode : s.mode = .dgram) : s.column = .dgramIdle := by
  simp [State.column, State.err, h, hmode]

/-- A row holds of a state when each cell holds under the conditions of its column. -/
theorem row_holds {halted streamIdle streamOpen dgramIdle : Verdict} (hdgram : s.mode = .dgram → s.ph = .idle)
    (hhalted : s.ecause ≠ .noFault → halted.Holds i s)
    (hstreamIdle : s.ecause = .noFault → s.mode = .stream → s.ph = .idle → streamIdle.Holds i s)
    (hstreamOpen : s.ecause = .noFault → s.mode = .stream → s.ph = .opened → streamOpen.Holds i s)
    (hdgramIdle : s.ecause = .noFault → s.mode = .dgram → s.ph = .idle → dgramIdle.Holds i s) :
    (row halted streamIdle streamOpen dgramIdle s.column).Holds i s := by
  by_cases h : s.ecause = .noFault
  · cases hmode : s.mode with
    | stream =>
      cases hph : s.ph with
      | idle =>
        rw [State.column_of_streamIdle h hmode hph]
        exact hstreamIdle h hmode hph
      | opened =>
        rw [State.column_of_streamOpen h hmode hph]
        exact hstreamOpen h hmode hph
    | dgram =>
      rw [State.column_of_dgram h hmode]
      exact hdgramIdle h hmode (hdgram hmode)
  · rw [State.column_of_halted h]
    exact hhalted h

/-! ### Rows that several operations share -/

/-- The row of the operations that both modes have and an open frame forbids: `CRC.INIT`, `CRC.BYTE`, and `SEND` of a
report. -/
theorem idle_row_holds (hdgram : s.mode = .dgram → s.ph = .idle) (hhalted : s.ecause ≠ .noFault → exec i s = .next s)
    (hidle : s.ecause = .noFault → s.ph = .idle → ∃ t, exec i s = .next t ∧ t.ecause = s.ecause)
    (hopened : s.ecause = .noFault → s.ph = .opened → exec i s = .next (s.opFault .seq)) :
    (row .refused .ok (.raises .seq) .ok s.column).Holds i s :=
  row_holds hdgram hhalted (fun h _ => hidle h) (fun h _ => hopened h) (fun h _ => hidle h)

/-- The row of the encode operations, which every state that is not halted completes. -/
theorem encode_row_holds (hdgram : s.mode = .dgram → s.ph = .idle) (hhalted : s.ecause ≠ .noFault → exec i s = .next s)
    (hok : s.ecause = .noFault → ∃ t, exec i s = .next t ∧ t.ecause = s.ecause) :
    (row .refused .ok .ok .ok s.column).Holds i s :=
  row_holds hdgram hhalted (fun h _ _ => hok h) (fun h _ _ => hok h) (fun h _ _ => hok h)

/-- The row of the reserved codes (R69). -/
theorem illegal_row_holds (hdgram : s.mode = .dgram → s.ph = .idle) (hi : exec i s = illegalCode s) :
    (row .refused (.raises .illegal) (.raises .illegal) (.raises .illegal) s.column).Holds i s := by
  obtain ⟨hraises, hrefused⟩ := illegalCode_eq s
  exact row_holds hdgram (fun h => hi.trans (hrefused h)) (fun h _ _ => hi.trans (hraises h))
    (fun h _ _ => hi.trans (hraises h)) (fun h _ _ => hi.trans (hraises h))

/-! ### The rows whose cells depend on an operand or on the report -/

theorem legality_rdsr_holds (hdgram : s.mode = .dgram → s.ph = .idle) (n : BitVec 4) :
    (legality (.rdsr n) s.hasReport s.column).Holds (.rdsr n) s := by
  by_cases hn : n.toNat ≤ 5
  · obtain ⟨v, hv⟩ := statusReg_some s hn
    have hok : Verdict.ok.Holds (.rdsr n) s := ⟨_, exec_rdsr_of_register hv, rfl⟩
    rw [legality, if_pos hn]
    exact row_holds hdgram (fun _ => hok) (fun _ _ _ => hok) (fun _ _ _ => hok) (fun _ _ _ => hok)
  · rw [legality, if_neg hn]
    exact illegal_row_holds hdgram (exec_reserved (.inr ⟨n, by omega, rfl⟩) s)

theorem State.hasReport_eq_true : s.hasReport = true ↔ s.rlen ≠ .empty := by
  simp [State.hasReport]

theorem legality_send_holds (hdgram : s.mode = .dgram → s.ph = .idle) :
    (legality .send s.hasReport s.column).Holds .send s := by
  by_cases hrep : s.hasReport = true
  · have hrlen : s.rlen ≠ .empty := State.hasReport_eq_true.mp hrep
    rw [legality, if_pos hrep]
    exact idle_row_holds hdgram exec_send_of_halted (fun h hph => ⟨_, exec_send_of_report h hph hrlen, rfl⟩)
      exec_send_of_opened
  · have hrlen : s.rlen = .empty := not_not.mp (mt State.hasReport_eq_true.mpr hrep)
    rw [legality, if_neg hrep]
    exact row_holds hdgram exec_send_of_halted (fun h _ hph => exec_send_of_empty h hph hrlen)
      (fun h _ => exec_send_of_opened h) (fun h _ hph => exec_send_of_empty h hph hrlen)

/-! ### The matrix -/

theorem legality_holds (hc : i.isCommand = true) (hdgram : s.mode = .dgram → s.ph = .idle) :
    (legality i s.hasReport s.column).Holds i s := by
  cases i with
  | crcInit =>
    exact idle_row_holds hdgram exec_crcInit_of_halted (fun h hph => ⟨_, exec_crcInit_of_idle h hph, rfl⟩)
      exec_crcInit_of_opened
  | crcByte b =>
    exact idle_row_holds hdgram (exec_crcByte_of_halted · b) (fun h hph => ⟨_, exec_crcByte_of_idle h hph b, rfl⟩)
      (exec_crcByte_of_opened · · b)
  | rdsr n => exact legality_rdsr_holds hdgram n
  | frmOpen =>
    exact row_holds hdgram (exec_framer_of_halted (.inl rfl))
      (fun h hmode hph => ⟨_, exec_frmOpen_of_idle h hmode hph, rfl⟩) exec_frmOpen_of_opened
      (fun h hmode _ => exec_framer_of_dgram (.inl rfl) h hmode)
  | frmData b =>
    exact row_holds hdgram (exec_framer_of_halted (.inr (.inl ⟨b, rfl⟩))) (exec_frmData_of_idle · · · b)
      (fun h hmode hph => ⟨_, exec_frmData_of_opened h hmode hph b, rfl⟩)
      (fun h hmode _ => exec_framer_of_dgram (.inr (.inl ⟨b, rfl⟩)) h hmode)
  | frmClose =>
    exact row_holds hdgram (exec_framer_of_halted (.inr (.inr rfl))) exec_frmClose_of_idle
      (fun h hmode hph => ⟨_, exec_frmClose_of_opened h hmode hph, rfl⟩)
      (fun h hmode _ => exec_framer_of_dgram (.inr (.inr rfl)) h hmode)
  | encMouse m =>
    exact encode_row_holds hdgram (exec_encMouse_of_halted · m) (fun h => ⟨_, exec_encMouse h m, rfl⟩)
  | encGpad g =>
    exact encode_row_holds hdgram (exec_encGpad_of_halted · g) (fun h => ⟨_, exec_encGpad h g, rfl⟩)
  | send => exact legality_send_holds hdgram
  | reserved0 | reserved7 | reservedB | reservedC | reservedD | reservedE | reservedF =>
    exact illegal_row_holds hdgram (exec_reserved (.inl (by simp)) s)
  | mouseReport _ | gamepadReport _ | symEnd | symLit _ | symEend | symEesc => simp [Instr.isCommand] at hc

end

/-- Settles O39: the statement writes out `Verdict.Holds`, so it is `legality_holds`, cell by cell. -/
theorem legalityMatrixDecidesOutcome : Obligations.LegalityMatrixDecidesOutcome := by
  intro i s hc hdgram
  have hcell := legality_holds hc hdgram
  cases hv : legality i s.hasReport s.column with
  | ok | raises c | refused =>
    rw [hv] at hcell
    exact hcell

end Sys2Proof.Machine

/-! The reference inverse, 44_deframe_reference.md: `deframe_one` and its three parts accept exactly the images of
`frame` and its parts (R150 to R154), `deframe_stream` gives back a stream of frames (R155, R156), and the receiver's
symbols and steps compute it (R73, R155). -/

namespace Sys2Proof.Machine

/-! ### What each part of the inverse accepts -/

/-- `strip_end_markers` accepts exactly the END-free strings between two ENDs (R150). -/
theorem stripEndMarkers_eq_some_iff {f c : List Byte} :
    stripEndMarkers f = some c ↔ f = [byteEnd] ++ c ++ [byteEnd] ∧ byteEnd ∉ c := by
  constructor
  · intro h
    cases f with
    | nil => cases h
    | cons a rest =>
      obtain ⟨⟨rfl, hlast, hfree⟩, hc⟩ := Option.ite_none_right_eq_some.mp h
      obtain rfl := Option.some.inj hc
      have hrest : rest.dropLast ++ [byteEnd] = rest := List.dropLast_append_getLast? _ hlast
      exact ⟨by rw [List.append_assoc, hrest, List.singleton_append], hfree⟩
  · rintro ⟨rfl, hfree⟩
    simp [stripEndMarkers, hfree]

/-- `check` accepts exactly a payload followed by its checksum (R153). -/
theorem checkWith_eq_some_iff {crc : List Byte → Word32} {u p : List Byte} :
    checkWith crc u = some p ↔ u = p ++ le32 (crc p) := by
  constructor
  · intro h
    unfold checkWith at h
    split at h
    · cases h
    · obtain ⟨hsum, hp⟩ := Option.ite_none_right_eq_some.mp h
      rw [← Option.some.inj hp, hsum, List.take_append_drop]
  · rintro rfl
    exact checkWith_append crc p

/-- An END-free string that unescapes is the stuffed form of the result: without END, a byte other than ESC is one that
needs no stuffing (R152). -/
theorem eq_escaped_of_unescape {c s : List Byte} (hfree : byteEnd ∉ c) (h : unescape c = some s) : c = escaped s := by
  fun_induction unescape c generalizing s with
  | case1 =>
    cases h
    rfl
  | case2 | case6 => cases h
  | case3 b hesc =>
    obtain rfl := Option.some.inj h
    have hend : b ≠ byteEnd := (List.ne_of_not_mem_cons hfree).symm
    rw [escaped_cons, esc_of_ne hend hesc]
    rfl
  | case4 rest ih | case5 rest _ ih =>
    obtain ⟨s, hrest, rfl⟩ := Option.map_eq_some_iff.mp h
    have hfree' : byteEnd ∉ rest := fun hmem => hfree (by simp [hmem])
    rw [ih hfree' hrest, escaped_cons]
    rfl
  | case7 b x rest hesc ih =>
    obtain ⟨s, hrest, rfl⟩ := Option.map_eq_some_iff.mp h
    have hend : b ≠ byteEnd := (List.ne_of_not_mem_cons hfree).symm
    rw [ih (List.not_mem_of_not_mem_cons hfree) hrest, escaped_cons, esc_of_ne hend hesc, List.singleton_append]

theorem unescape_eq_some_iff {c s : List Byte} (hfree : byteEnd ∉ c) : unescape c = some s ↔ c = escaped s := by
  constructor
  · exact eq_escaped_of_unescape hfree
  · rintro rfl
    exact unescape_escaped s

/-- What `deframe_one` accepts is taken apart by its three parts, each of which accepts only an image (R154). -/
theorem deframeOneWith_eq_some_iff {crc : List Byte → Word32} {f p : List Byte} :
    deframeOneWith crc f = some p ↔ f = frameWith crc p := by
  constructor
  · intro h
    obtain ⟨u, hu, hcheck⟩ := Option.bind_eq_some_iff.mp h
    obtain ⟨c, hstrip, hunescape⟩ := Option.bind_eq_some_iff.mp hu
    obtain ⟨rfl, hfree⟩ := stripEndMarkers_eq_some_iff.mp hstrip
    obtain rfl := checkWith_eq_some_iff.mp hcheck
    rw [(unescape_eq_some_iff hfree).mp hunescape, frameWith_eq]
  · rintro rfl
    exact deframeOneWith_frameWith crc p

/-- Settles O20: both equivalences, the converse directions being those of `frame` and `escaped` undone. -/
theorem deframeOneAcceptsExactlyFrames : Obligations.DeframeOneAcceptsExactlyFrames :=
  ⟨fun _ _ _ => deframeOneWith_eq_some_iff, fun _ _ => unescape_eq_some_iff⟩

/-! ### A stream of frames -/

/-- Bytes before the first END are dropped (R155). -/
theorem deframeLoop_noise_append {noise : List Byte} (h : byteEnd ∉ noise) (rest buf : List Byte) :
    deframeLoop (noise ++ rest) false buf = deframeLoop rest false buf := by
  induction noise with
  | nil => rfl
  | cons b noise ih =>
    obtain ⟨hb, hnoise⟩ : byteEnd ≠ b ∧ byteEnd ∉ noise := by simpa using h
    simp [deframeLoop, hb.symm, ih hnoise]

/-- An END with nothing pending delivers nothing (R155). -/
theorem closeCandidate_of_nothing_pending {inside : Bool} {buf : List Byte} (h : buf = [] ∨ inside = false) :
    closeCandidate inside buf = [] := by
  rcases h with rfl | rfl <;> simp [closeCandidate]

/-- With nothing pending, frames one after the other give their payloads; each leaves nothing pending (R156 (a)). -/
theorem deframeLoop_frames (ps : List (List Byte)) (inside : Bool) :
    deframeLoop (ps.map frame).flatten inside [] = ps := by
  induction ps generalizing inside with
  | nil => rfl
  | cons p ps ih =>
    rw [List.map_cons, List.flatten_cons, deframeLoop_frame_append, closeCandidate_of_nothing_pending (.inl rfl), ih,
      List.nil_append]

/-- Settles O21: the noise is dropped, then by induction on the frames. -/
theorem streamOfFramesDeframes : Obligations.StreamOfFramesDeframes := by
  intro noise ps hnoise
  rw [deframeStream, deframeLoop_noise_append hnoise, deframeLoop_frames]

/-! ### The receiver, byte by byte -/

section
variable {r : Receiver} {b : Byte} {bs : List Byte}

theorem Receiver.byte_end (r : Receiver) :
    r.byte byteEnd = { r with frames := r.frames ++ closeCandidate r.inside r.buf, buf := [], inside := true } :=
  if_pos rfl

theorem Receiver.byte_inside (hb : b ≠ byteEnd) (h : r.inside = true) :
    r.byte b = { r with buf := r.buf ++ [b] } := by
  rw [Receiver.byte, if_neg hb, if_pos h]

theorem Receiver.byte_outside (hb : b ≠ byteEnd) (h : r.inside = false) : r.byte b = r := by
  simp [Receiver.byte, hb, h]

/-- Inside a frame, END-free bytes are collected (R155). -/
theorem Receiver.foldl_byte_inside (hfree : byteEnd ∉ bs) (h : r.inside = true) :
    bs.foldl Receiver.byte r = { r with buf := r.buf ++ bs } := by
  induction bs generalizing r with
  | nil => simp
  | cons b bs ih =>
    have hb : b ≠ byteEnd := (List.ne_of_not_mem_cons hfree).symm
    rw [List.foldl_cons, byte_inside hb h,
      ih (r := { r with buf := r.buf ++ [b] }) (List.not_mem_of_not_mem_cons hfree) h, List.append_assoc,
      List.singleton_append]

/-- Outside a frame, END-free bytes are noise (R155). -/
theorem Receiver.foldl_byte_outside (hfree : byteEnd ∉ bs) (h : r.inside = false) :
    bs.foldl Receiver.byte r = r := by
  induction bs with
  | nil => rfl
  | cons b bs ih =>
    have hb : b ≠ byteEnd := (List.ne_of_not_mem_cons hfree).symm
    rw [List.foldl_cons, byte_outside hb h, ih (List.not_mem_of_not_mem_cons hfree)]

end

/-! ### Symbols at the receiver -/

/-- A data symbol feeds the receiver the stuffed form of its byte (R73, R121). -/
theorem exec_symbolOf (b : Byte) (s : State) : exec (symbolOf b) s = .next (s.receive (esc b)) := by
  unfold symbolOf esc
  split
  · rfl
  · split <;> rfl

/-- END delivers what the pending candidate holds and opens the next (R73, R155). -/
theorem exec_symEnd (s : State) :
    exec .symEnd s = .next { s with
      rx := { s.rx with frames := s.rx.frames ++ closeCandidate s.rx.inside s.rx.buf, buf := [], inside := true } } := by
  rw [← Receiver.byte_end]
  rfl

section
variable {s : State}

theorem exec_symbolOf_inside (b : Byte) (h : s.rx.inside = true) :
    exec (symbolOf b) s = .next { s with rx := { s.rx with buf := s.rx.buf ++ esc b } } := by
  rw [exec_symbolOf, State.receive, Receiver.foldl_byte_inside (byteEnd_notMem_esc b) h]

theorem exec_symbolOf_outside (b : Byte) (h : s.rx.inside = false) : exec (symbolOf b) s = .next s := by
  rw [exec_symbolOf, State.receive, Receiver.foldl_byte_outside (byteEnd_notMem_esc b) h]

theorem exec_symEnd_of_candidate {p : List Byte} (hin : s.rx.inside = true)
    (hbuf : s.rx.buf = escaped (p ++ le32 (crc32 p))) :
    exec .symEnd s = .next { s with rx := { s.rx with frames := s.rx.frames ++ [p], buf := [] } } := by
  rw [exec_symEnd, hin, hbuf, closeCandidate_escaped, ← hin]

theorem exec_symEnd_of_nothing_pending (h : s.rx.buf = [] ∨ s.rx.inside = false) :
    exec .symEnd s = .next { s with rx := { s.rx with buf := [], inside := true } } := by
  rw [exec_symEnd, closeCandidate_of_nothing_pending h, List.append_nil]

end

/-- Settles O38: a data symbol's bytes hold no END, so they are collected or dropped whole; END by `exec_symEnd`. -/
theorem symbolsBuildAndCloseCandidates : Obligations.SymbolsBuildAndCloseCandidates :=
  ⟨fun b _ h => ⟨_, exec_symbolOf_inside b h, rfl⟩, fun b _ => exec_symbolOf_outside b,
    fun _ _ => exec_symEnd_of_candidate, fun _ => exec_symEnd_of_nothing_pending⟩

/-! ### Steps over a wire input -/

theorem State.receive_receive (s : State) (a b : List Byte) : (s.receive a).receive b = s.receive (a ++ b) := by
  simp only [State.receive, List.foldl_append]

/-- The bytes still to be read are an input, apart from the receiver. -/
theorem State.receive_unread (s : State) (left bs : List Byte) :
    (s.unread left).receive bs = (s.receive bs).unread left := by
  rw [State.unread_eq, State.unread_eq]
  rfl

/-- Bytes to be read are the next input, unless there are none. -/
theorem step_unread (s : State) {bytes : List Byte} (h : bytes ≠ []) :
    step (s.unread bytes) = wireMoment bytes s := by
  rw [State.unread_eq, if_neg h]
  exact step_of_wire rfl

/-- A moment of the wire reads some bytes, at least one, and feeds the receiver exactly these: a symbol's, or the one
byte that starts none (R73, R151). -/
theorem wireMoment_reads_first {bytes : List Byte} (h : bytes ≠ []) (s : State) :
    ∃ first left, bytes = first ++ left ∧ first ≠ [] ∧
      wireMoment bytes s = .next ((s.receive first).unread left) := by
  cases hsym : decodeSymbol bytes with
  | ok symbol =>
    obtain ⟨i, left⟩ := symbol
    obtain ⟨hi, hbytes⟩ := decodeSymbol_cases hsym
    refine ⟨symbolBytes i, left, hbytes, ?_, ?_⟩
    · rcases hi with rfl | ⟨b, rfl⟩ | rfl | rfl <;> exact List.cons_ne_nil _ _
    · rw [wireMoment_of_symbol hsym, exec_symbol hsym, State.receive_unread]
  | error e =>
    cases bytes with
    | nil => exact absurd rfl h
    | cons b left =>
      refine ⟨[b], left, rfl, List.cons_ne_nil _ _, ?_⟩
      simp only [wireMoment, hsym, State.receive_unread]

/-- Some number of steps reads all the bytes before every other input and feeds them to the receiver in order: by
induction on how many are still to be read. -/
theorem run_unread (bytes : List Byte) (s : State) :
    ∃ n, Host.Core.run Sys2Proof.core n (s.unread bytes) = .next (s.receive bytes) := by
  induction hlen : bytes.length using Nat.strong_induction_on generalizing bytes s with
  | _ k ih =>
    by_cases hnil : bytes = []
    · subst hnil
      exact ⟨0, rfl⟩
    · obtain ⟨first, left, rfl, hfirst, hread⟩ := wireMoment_reads_first hnil s
      have hshorter : left.length < k := by
        have hpos := List.length_pos_iff.mpr hfirst
        rw [List.length_append] at hlen
        omega
      obtain ⟨n, hrun⟩ := ih _ hshorter left (s.receive first) rfl
      refine ⟨n + 1, ?_⟩
      rw [run_succ ((step_unread s hnil).trans hread), hrun, State.receive_receive]

/-- A wire input is read to its end in some number of steps; one without bytes takes a step too. -/
theorem run_wire {s : State} {bytes : List Byte} {rest : List Input} (h : s.inputs = .wire bytes :: rest) :
    ∃ n, Host.Core.run Sys2Proof.core n s = .next (State.receive { s with inputs := rest } bytes) := by
  by_cases hnil : bytes = []
  · subst hnil
    exact ⟨1, run_succ (step_of_wire h) 0⟩
  · have hs : s = State.unread { s with inputs := rest } bytes := by rw [State.unread_eq, if_neg hnil, ← h]
    obtain ⟨n, hrun⟩ := run_unread bytes { s with inputs := rest }
    rw [← hs] at hrun
    exact ⟨n, hrun⟩

/-- Settles O59: the steps feed the receiver the bytes (`run_wire`), and its loop is `deframe_stream`'s
(`foldl_byte_frames`). -/
theorem receiverStepsAreDeframeStream : Obligations.ReceiverStepsAreDeframeStream := by
  intro bytes rest s hin hinside hbuf
  obtain ⟨n, hrun⟩ := run_wire hin
  refine ⟨n, _, hrun, rfl, ?_, rfl⟩
  rw [State.receive_rx, foldl_byte_frames, hinside, hbuf, deframeStream]

end Sys2Proof.Machine

/-! Faults and the halted state, 60_exceptions.md: what taking a fault records (R172), what a halted block answers to an
operation and to a sequence of them (R173), and that a step other than reset leaves it halted (R175). -/

namespace Sys2Proof.Machine

section
variable {i : Instr} {s t : State}

/-! ### Taking a fault -/

/-- An operation writes `ECAUSE` by raising an `OpFault` from a state that is not halted, and in no other way (R172). -/
theorem exec_command_fault (hc : i.isCommand = true) (h : exec i s = .next t) (hne : t.ecause ≠ s.ecause) :
    s.ecause = .noFault ∧ ∃ c, c ≠ .noFault ∧ t = s.opFault c := by
  rcases exec_command_cases hc h with ⟨-, rfl⟩ | hfault | ⟨v, rfl⟩ | ⟨-, crc, ph, rb, rlen, bytes, rfl⟩
  · exact absurd rfl hne
  · exact hfault
  · exact absurd rfl hne
  · exact absurd rfl hne

/-- Outside reset the `err` output of a halted block is 1 (R177). -/
theorem State.errPin_of_halted {p : Pins} (hrst : p.rst = false) (h : s.ecause ≠ .noFault) : s.errPin p = true := by
  simp [State.errPin, State.err, hrst, h]

/-! ### One operation of a halted block -/

/-- What an operation returns is read in any state, with no other effect (R142). -/
theorem exec_of_returned {v : ResWord} (hv : s.returned i = some v) : exec i s = .next (s.result v) := by
  cases i with
  | rdsr n => exact exec_rdsr_of_register hv
  | _ => simp [State.returned] at hv

/-- A halted block refuses every operation that returns nothing (R173). -/
theorem exec_command_refused (hc : i.isCommand = true) (h : s.ecause ≠ .noFault) (hv : s.returned i = none) :
    exec i s = .next s := by
  cases i with
  | crcInit => exact exec_crcInit_of_halted h
  | crcByte b => exact exec_crcByte_of_halted h b
  | rdsr n =>
    have hn : 6 ≤ n.toNat := by
      by_contra hlt
      obtain ⟨v, hsome⟩ := statusReg_some s (n := n) (by omega)
      exact absurd (hsome.symm.trans hv) (by simp)
    exact (exec_reserved (.inr ⟨n, hn, rfl⟩) s).trans ((illegalCode_eq s).2 h)
  | frmOpen => exact exec_framer_of_halted (.inl rfl) h
  | frmData b => exact exec_framer_of_halted (.inr (.inl ⟨b, rfl⟩)) h
  | frmClose => exact exec_framer_of_halted (.inr (.inr rfl)) h
  | encMouse m => exact exec_encMouse_of_halted h m
  | encGpad g => exact exec_encGpad_of_halted h g
  | send => exact exec_send_of_halted h
  | reserved0 | reserved7 | reservedB | reservedC | reservedD | reservedE | reservedF =>
    exact (illegalCode_eq s).2 h
  | mouseReport _ | gamepadReport _ | symEnd | symLit _ | symEend | symEesc => simp [Instr.isCommand] at hc

/-- All that an operation can do to a halted block is to return a result (R173). -/
theorem exec_command_of_halted (hc : i.isCommand = true) (h : s.ecause ≠ .noFault) :
    exec i s = .next { s with results := s.results ++ (s.returned i).toList } := by
  cases hv : s.returned i with
  | none => simpa using exec_command_refused hc h hv
  | some v => exact exec_of_returned hv

/-! ### Sequences of operations -/

/-- What an operation returns does not depend on the results returned before it (R28). -/
theorem State.returned_of_results (s : State) (rs : List ResWord) :
    State.returned { s with results := rs } = s.returned := rfl

/-- A halted block answers a sequence of operations with the registers of the state it halted in (R173). -/
theorem runOps_of_halted (is : List Instr) (hc : ∀ i ∈ is, i.isCommand = true) (h : s.ecause ≠ .noFault) :
    runOps is s = .next { s with results := s.results ++ is.filterMap s.returned } := by
  induction is generalizing s with
  | nil => simp [runOps]
  | cons i is ih =>
    obtain ⟨hi, his⟩ := List.forall_mem_cons.mp hc
    have hrest := ih (s := { s with results := s.results ++ (s.returned i).toList }) his h
    simp only [runOps, exec_command_of_halted hi h, hrest, State.returned_of_results]
    cases hv : s.returned i <;> simp [hv]

/-! ### Steps of a halted block -/

/-- A moment of the pins other than reset lets a halted block hand over a byte or return a result, and nothing else
(R51, R173). -/
theorem pinsMoment_of_halted {p : Pins} (hrst : p.rst = false) (h : s.ecause ≠ .noFault)
    (hpins : pinsMoment p s = .next t) :
    t.emitted = s.emitted ∧ ∃ out offer results, t = { s with out := out, offer := offer, results := results } := by
  rcases pinsMoment_cases hpins with ⟨hreset, -⟩ | ⟨-, e, es, hoffer, rfl⟩ | ⟨-, -, -, hexec⟩ | ⟨-, -, -, rfl⟩
  · simp [hrst] at hreset
  · split
    · exact ⟨by simp [State.emitted, hoffer], _, _, _, rfl⟩
    · exact ⟨rfl, _, _, _, rfl⟩
  · rw [exec_command_of_halted (decodeCommand_isCommand _ _) h] at hexec
    cases hexec
    exact ⟨rfl, _, _, _, rfl⟩
  · exact ⟨rfl, _, _, _, rfl⟩

/-- A step of a halted block other than a moment of reset touches the ports and the results alone, and emits nothing
(R173, R175). -/
theorem step_of_halted (h : s.ecause ≠ .noFault) (hstep : step s = .next t)
    (hrst : ∀ p rest, s.inputs = .pins p :: rest → p.rst = false) :
    t.emitted = s.emitted ∧ ∃ out offer results rx inputs,
      t = { s with out := out, offer := offer, results := results, rx := rx, inputs := inputs } := by
  rcases step_cases hstep with ⟨-, rfl⟩ | ⟨p, rest, hin, hpins⟩ | ⟨_, _, -, ht⟩
  · exact ⟨rfl, _, _, _, _, _, rfl⟩
  · obtain ⟨hemitted, out, offer, results, rfl⟩ :=
      pinsMoment_of_halted (s := { s with inputs := rest }) (hrst p rest hin) h hpins
    exact ⟨hemitted, _, _, _, _, _, rfl⟩
  · rw [ht]
    exact ⟨rfl, _, _, _, _, _, rfl⟩

/-- A run that stops in a halted state has not ended well (R194). -/
theorem State.endsWell_of_halted (h : s.ecause ≠ .noFault) : s.endsWell = false := by
  simp [State.endsWell, h]

end

/-! ### The statements -/

/-- Settles O40: the operation that writes `ECAUSE` ends in `State.opFault` (`exec_command_fault`), which writes nothing
else. -/
theorem faultEntryRecordsTheCauseAlone : Obligations.FaultEntryRecordsTheCauseAlone := by
  refine ⟨fun i s t hc h hne => ?_, fun _ _ => rfl⟩
  obtain ⟨hnoFault, c, hcause, rfl⟩ := exec_command_fault hc h hne
  exact ⟨hnoFault, rfl, rfl, rfl, fun p hrst => State.errPin_of_halted hrst hcause⟩

/-- Settles O41, by `runOps_of_halted`; the port is ready whatever `ECAUSE` holds, and registers 0 to 5 exist in every
state. -/
theorem haltedBlockOnlyReadsStatus : Obligations.HaltedBlockOnlyReadsStatus := fun is s hc h =>
  ⟨⟨_, runOps_of_halted is hc h, rfl⟩, fun _ hrst hoffer => State.cmdReady_eq_true.mpr ⟨hrst, hoffer⟩,
    fun _ hn => statusReg_some s hn⟩

/-- Settles O42, by `step_of_halted`; both states are halted, so neither ends a run well. -/
theorem onlyResetLeavesTheHaltedState : Obligations.OnlyResetLeavesTheHaltedState := by
  intro s t h hstep hrst
  obtain ⟨hemitted, out, offer, results, rx, inputs, rfl⟩ := step_of_halted h hstep hrst
  exact ⟨rfl, hemitted, rfl, rfl, rfl, rfl, rfl, State.endsWell_of_halted h, State.endsWell_of_halted h⟩

end Sys2Proof.Machine

/-! Reset and the end of an operation, 70_reset_and_hazards.md: what a moment of reset restores (R190), how it cuts an
operation short (R191), and how many bytes each operation puts on offer (R201). -/

namespace Sys2Proof.Machine

/-! ### A moment of reset -/

/-- While `rst` = 1 the outputs are at rest (R190). -/
theorem State.outputs_of_reset (s : State) {p : Pins} (hrst : p.rst = true) :
    s.cmdReady p = false ∧ s.outValid p = false ∧ s.errPin p = false :=
  ⟨State.cmdReady_eq_false.mpr (.inl hrst), by simp [State.outValid, hrst], by simp [State.errPin, hrst]⟩

theorem step_of_reset {s : State} {p : Pins} {rest : List Input} (hin : s.inputs = .pins p :: rest)
    (hrst : p.rst = true) : step s = .next (State.resetTo { s with inputs := rest } p.modeStrap) :=
  (step_of_pins hin).trans (pinsMoment_of_reset hrst)

/-- Settles O43: the step is `State.resetTo` (`step_of_reset`), whose fields are the values claimed. -/
theorem resetMomentRestoresResetValues : Obligations.ResetMomentRestoresResetValues := fun s _ _ hin hrst =>
  ⟨s.outputs_of_reset hrst, _, step_of_reset hin hrst, rfl, rfl, rfl, rfl, rfl, rfl, rfl, rfl, rfl, rfl, rfl, rfl⟩

/-! ### How many bytes each operation emits -/

/-- A frame is at least the payload, four bytes of checksum and two ENDs: stuffing drops no byte (R123). -/
theorem le_frame_length (p : List Byte) : p.length + 6 ≤ (frame p).length := by
  have hstuffed := length_le_escaped_length (p ++ le32 (crc32 p))
  have hlen : (p ++ le32 (crc32 p)).length = p.length + 4 := by simp
  rw [frame, frameWith_length]
  omega

/-- The stuffed checksum is at least four bytes. -/
theorem le_escaped_le32_length (v : Word32) : 4 ≤ (escaped (le32 v)).length :=
  length_le_escaped_length (le32 v)

/-- The counts of R201: which operations put bytes on offer in state `s`, and how many. -/
theorem Emission.counts {s : State} {i : Instr} {bytes : List OutByte} (h : Emission s i bytes) (hne : bytes ≠ []) :
    (i = .frmOpen ∧ bytes.length = 1) ∨
      (∃ b, i = .frmData b ∧ 1 ≤ bytes.length ∧ bytes.length ≤ 2) ∨
      (i = .frmClose ∧ 5 ≤ bytes.length ∧ bytes.length ≤ 9) ∨
      (i = .send ∧ s.mode = .dgram ∧ bytes.length = s.rlen.toNat) ∨
      (i = .send ∧ s.mode = .stream ∧ s.rlen.toNat + 6 ≤ bytes.length ∧ bytes.length ≤ 2 * s.rlen.toNat + 10) := by
  cases h with
  | nothing => exact absurd rfl hne
  | opening => exact .inl ⟨rfl, rfl⟩
  | data b =>
    rw [List.length_map]
    exact .inr (.inl ⟨b, rfl, one_le_esc_length b, esc_length_le b⟩)
  | closing =>
    have hlower := le_escaped_le32_length (crcFinal s.crc)
    have hupper := escaped_le32_length_le (crcFinal s.crc)
    rw [withLast_length, List.length_append, List.length_singleton]
    exact .inr (.inr (.inl ⟨rfl, by omega, by omega⟩))
  | datagram hmode =>
    rw [withLast_length, report_length]
    exact .inr (.inr (.inr (.inl ⟨rfl, hmode, rfl⟩)))
  | framed hmode =>
    rw [withLast_length, ← report_length]
    exact .inr (.inr (.inr (.inr ⟨rfl, hmode, le_frame_length _, frame_length_le _⟩)))

/-- Settles O54: what an operation adds to the offer is an `Emission` (`exec_command_emission`), whose cases have the
counts of R201 and the bound of R46. -/
theorem operationsEmitWithinBounds : Obligations.OperationsEmitWithinBounds := by
  intro i s t hc h
  obtain ⟨bytes, hemit, hoffer⟩ := exec_command_emission hc h
  exact ⟨bytes, hoffer, hemit.length_le, hemit.counts⟩

/-! ### Reset during an operation -/

/-- An operation does the same whatever inputs are left. -/
theorem exec_command_inputs {i : Instr} {s t : State} (hc : i.isCommand = true) (h : exec i s = .next t)
    (ins : List Input) : exec i { s with inputs := ins } = .next { t with inputs := ins } := by
  obtain ⟨bytes, ht, hports⟩ := exec_command_ports hc h
  rw [ht]
  exact hports s.out s.offer s.rx ins

/-- With nothing on offer, the word presented is accepted and its operation takes effect in that step (R46, R51;
notes/assumptions/1.md), whatever inputs come after it. -/
theorem step_of_commandPins {m : Mode} {w : CmdWord} {rest later : List Input} {s u : State} (hoffer : s.offer = [])
    (hin : s.inputs = commandPins m w :: rest)
    (h : exec (decodeCommand s.axisInW w) { s with inputs := later } = .next u) :
    step s = .next { u with inputs := rest } := by
  rw [step_of_pins hin, pinsMoment_of_command rfl (by exact hoffer) rfl]
  exact exec_command_inputs (decodeCommand_isCommand _ _) h rest

/-- The sink takes `k` bytes, then a reset withdraws the rest (R191). -/
theorem run_readyPins_reset (m strap : Mode) (more : List Input) (k : Nat) {s : State}
    (hin : s.inputs = List.replicate k (readyPins m) ++ resetPins strap :: more) :
    Host.Core.run Sys2Proof.core (k + 1) s
      = .next { s.resetTo strap with out := s.out ++ s.offer.take k, inputs := more } := by
  have hreset := step_of_reset (s := { s with
    out := s.out ++ s.offer.take k, offer := s.offer.drop k, inputs := resetPins strap :: more }) rfl rfl
  exact (run_add (run_readyPins m _ k hin) 1).trans (run_succ hreset 0)

/-- Settles O56: the word is accepted (`step_of_commandPins`), and what follows is `run_readyPins_reset` from the state
the operation leaves, whose OUT and remaining inputs the operation has not touched. -/
theorem resetCutsAnOperationShort : Obligations.ResetCutsAnOperationShort := by
  intro w k m strap more s hoffer hin
  obtain ⟨u, hu⟩ := exec_exists_next (decodeCommand s.axisInW w) { s with inputs := more }
  obtain ⟨hout, -, hinputs⟩ := exec_command_frame (decodeCommand_isCommand _ _) hu
  refine ⟨u, _, hu, ?_, rfl⟩
  rw [run_succ (step_of_commandPins hoffer hin hu), run_readyPins_reset m strap more k rfl]
  simp [State.resetTo, hout, hinputs]

end Sys2Proof.Machine
